-- ==== Sys2Proof/Word.lean ====
section
/-! DEFINITION. The widths of 00_scope.md R10: bytes, 16-bit counts, 32-bit counters. -/

namespace Sys2Proof

/-- `u8` of R10: a byte of the wire, of an operand or of a register. -/
abbrev Byte := BitVec 8

/-- `u16` of R10: the byte counts of R57. -/
abbrev Half := BitVec 16

/-- `u32` of R10: FCNT, FREQ and the baud rate operand. -/
abbrev Word := BitVec 32

end Sys2Proof
end

