-- ==== Sys2Proof/Config.lean ====
section
/-! DEFINITION. The fixed parameters of 00_scope.md R6, and the open parameters of R7 as free values without a body. -/

namespace Sys2Proof

/-! ### Fixed parameters (R6) -/

/-- MARKER, the first byte of every frame. -/
def Config.marker : Byte := 0xAA#8
/-- POLY, x^8 + x^2 + x + 1 with the x^8 term implicit. -/
def Config.poly : Byte := 0x07#8
/-- CRC_INIT. -/
def Config.crcInit : Byte := 0x00#8
/-- HDR_LEN: marker, kind, length. -/
abbrev Config.hdrLen : Nat := 3
/-- MAX_PAYLOAD. -/
abbrev Config.maxPayload : Nat := 255
/-- MAX_FRAME = 3 + 255 + 1. -/
abbrev Config.maxFrame : Nat := 259
/-- RXBUF_CAP, in bytes. -/
abbrev Config.rxbufCap : Nat := 259
/-- CMD_GETDATA. -/
def Config.cmdGetData : Byte := 1#8
/-- CMD_STOP. -/
def Config.cmdStop : Byte := 2#8
/-- CMD_RECONF. -/
def Config.cmdReconf : Byte := 3#8
/-- RSP_ACCEPTED. -/
def Config.rspAccepted : Byte := 0x01#8
/-- RSP_REJECTED. -/
def Config.rspRejected : Byte := 0x02#8
/-- RSP_CHECKSUMFAILED. -/
def Config.rspChecksumFailed : Byte := 0x03#8
/-- RSP_MALFORMED; the block never produces it (R53). -/
def Config.rspMalformed : Byte := 0x04#8
/-- RECONF_PAYLOAD_LEN. -/
abbrev Config.reconfPayloadLen : Nat := 5
/-- SENSOR_PAYLOAD_LEN (information only: outside the block, R55). -/
abbrev Config.sensorPayloadLen : Nat := 31

/-! ### Open parameters (R7): no body, so no proof can see their values -/

/-- The part of `BAUD_CODE` the source elides: any partial map from a rate to a code byte (92 D18).
UNVERIFIED value, safe: a claim holds for every such map (log entry 3). -/
opaque Config.baudCodeElided : Nat → Option Byte

/-- `BAUD_CODE`, with the two entries the source gives (R7). -/
def Config.baudCode (rate : Nat) : Option Byte :=
  if rate = 9600 then some 1#8
  else if rate = 19200 then some 2#8
  else Config.baudCodeElided rate

/-- The free TX_ACCEPT draws (R7, 92 D21), by draw number. The reader caps each at the length offered (log entry 2). -/
opaque Config.freeAccept : Nat → Nat

/-- The free TRANSPORT_OPEN samples (R7, 92 D19), by draw number (log entry 2). -/
opaque Config.freeOpen : Nat → Bool

/-- The two byte orders R7 names for the sensor record. -/
inductive ByteOrder where
  | littleEndian
  | bigEndian
deriving DecidableEq, Repr, Inhabited

/-- PAYLOAD_BYTE_ORDER (R7, 92 D32). It is outside the block: no definition of the machine reads it. -/
opaque Config.payloadByteOrder : ByteOrder

/-! ### The sensor record (R55: information only; the block moves it unchanged) -/

/-- The three field types of R55. -/
inductive SensorType where
  | float32
  | signed16
  | unsigned8
deriving DecidableEq, Repr

/-- The width in bytes of a field type. -/
def SensorType.width : SensorType → Nat
  | .float32 => 4
  | .signed16 => 2
  | .unsigned8 => 1

/-- The offset and type of each field of the 31-byte record, in the order R55 lists them. -/
def Config.sensorFields : List (Nat × SensorType) :=
  [(0, .float32), (4, .float32), (8, .float32),
   (12, .signed16), (14, .signed16), (16, .signed16),
   (18, .signed16), (20, .signed16), (22, .signed16),
   (24, .signed16), (26, .signed16), (28, .signed16),
   (30, .unsigned8)]

end Sys2Proof
end

