-- ==== Sys2Proof/Machine/Wire.lean ====
section
/-! DEFINITION. The pure functions of the wire: the CRC-8 of 40_crc.md and the frame layout of 30_encoding.md R50. -/

namespace Sys2Proof

/-- `xs[a..b)` of 00_scope.md R11. -/
def slice (a b : Nat) (xs : List Byte) : List Byte := (xs.take b).drop a

/-- One iteration of R80's loop: test bit 7, shift left, XOR with POLY if it was set. -/
def crc8Shift (c : Byte) : Byte :=
  if c.getLsbD 7 then (c <<< 1) ^^^ Config.poly else c <<< 1

/-- `n` iterations of R80's loop. -/
def crc8Shifts : Nat → Byte → Byte
  | 0, c => c
  | n + 1, c => crc8Shifts n (crc8Shift c)

/-- `crc8_step(c, b)` of R80. -/
def crc8Step (c b : Byte) : Byte := crc8Shifts 8 (c ^^^ b)

/-- `crc8_from(c, bs)` of R85(a): the loop of R81 started at `c`. -/
def crc8From (c : Byte) : List Byte → Byte
  | [] => c
  | b :: bs => crc8From (crc8Step c b) bs

/-- `crc8(bs)` of R81. There is no final XOR. -/
def crc8 (bs : List Byte) : Byte := crc8From Config.crcInit bs

/-- The frame bytes before the checksum: marker, kind, length, payload (R50). -/
def frameBody (kind : Byte) (p : List Byte) : List Byte :=
  Config.marker :: kind :: BitVec.ofNat 8 p.length :: p

/-- A frame of R50 with the checksum byte `c`. -/
def frameWith (kind : Byte) (p : List Byte) (c : Byte) : List Byte :=
  frameBody kind p ++ [c]

/-- A frame of R50 with the checksum the rule gives it. -/
def frameOf (kind : Byte) (p : List Byte) : List Byte :=
  frameWith kind p (crc8 (frameBody kind p))

/-- The frame length R51 computes from the declared length, in `Nat`. -/
def frameLength (l : Byte) : Nat := 3 + l.toNat + 1

end Sys2Proof
end

