-- ==== Sys2Proof/Syntax.lean ====
section
/-! DEFINITION. The instructions: one constructor per mnemonic of spec/opcode_table.json. An instruction is an event
kind (00_scope.md R8, R9) or a frame of the wire (30_encoding.md R52, R53). -/

namespace Sys2Proof

/-- Where encoded instructions stand. 30_encoding.md has two independent encodings, the events (R56) and the wire
frame (R50); a frame's direction says whether its kind byte is a command kind (R52) or a response kind (R53). -/
inductive Channel where
  /-- the byte string of mixed events (R56) -/
  | events
  /-- frames from the host to the device (R52) -/
  | wireOut
  /-- the bytes the device sends to the host (R53) -/
  | wireIn
deriving DecidableEq, Repr

/-- The instruction set. Operands as in 30_encoding.md R57; a list's count `n` is its length. -/
inductive Instr where
  /-- CRC_CLR (R83) -/
  | crcClr
  /-- CRC_UPD b (R82) -/
  | crcUpd (b : Byte)
  /-- CRC_RD (R84) -/
  | crcRd
  /-- ENC kind, [payload] (R90) -/
  | enc (kind : Byte) (payload : List Byte)
  /-- CHK [bytes] (R92) -/
  | chk (bytes : List Byte)
  /-- SEND [bytes] (R105) -/
  | send (bytes : List Byte)
  /-- START tag (R101) -/
  | start (tag : Byte)
  /-- STOP (R102) -/
  | stop
  /-- RECONF baud, dbits, sbits, par, flow (R103) -/
  | reconf (baud : Word) (dbits sbits par flow : Byte)
  /-- RX_BYTE b (R130) -/
  | rxByte (b : Byte)
  /-- TICK (R106) -/
  | tick
  /-- RD_MODE (R107) -/
  | rdMode
  /-- RD_FCNT (R108) -/
  | rdFcnt
  /-- RD_FREQ (R109) -/
  | rdFreq
  /-- RD_RXLEN (R110) -/
  | rdRxlen
  /-- RST (R170) -/
  | rst
  /-- RESERVED: an opcode byte no event has (R59) -/
  | reserved (op : Byte)
  /-- FRAME_GetData: `AA 01 00 DA` (R52) -/
  | frameGetData
  /-- FRAME_Stop: `AA 02 00 E5` (R52) -/
  | frameStop
  /-- FRAME_ReconfigureUart: `AA 03 05 c0 c1 c2 c3 c4 crc` (R52, R54) -/
  | frameReconfigureUart (c0 c1 c2 c3 c4 : Byte)
  /-- RESP_KIND_Accepted: `AA 01 L payload crc`, with the checksum byte received (R53) -/
  | respAccepted (payload : List Byte) (crc : Byte)
  /-- RESP_KIND_Rejected: `AA 02 L payload crc` (R53) -/
  | respRejected (payload : List Byte) (crc : Byte)
  /-- RESP_KIND_ChecksumFailed: `AA 03 L payload crc` (R53) -/
  | respChecksumFailed (payload : List Byte) (crc : Byte)
  /-- RESP_KIND_Malformed: `AA 04 L payload crc` (R53) -/
  | respMalformed (payload : List Byte) (crc : Byte)
deriving DecidableEq, Repr

/-- The channel an instruction's encoding belongs to. -/
def Instr.channel : Instr → Channel
  | .frameGetData | .frameStop | .frameReconfigureUart .. => .wireOut
  | .respAccepted .. | .respRejected .. | .respChecksumFailed .. | .respMalformed .. => .wireIn
  | .crcClr | .crcUpd _ | .crcRd | .enc .. | .chk _ | .send _ | .start _ | .stop | .reconf .. | .rxByte _ | .tick
  | .rdMode | .rdFcnt | .rdFreq | .rdRxlen | .rst | .reserved _ => .events

end Sys2Proof
end

