-- ==== Sys2Proof/WellFormed.lean ====
section
/-! DEFINITION. Which instructions the encodings can express (30_encoding.md R50, R54, R57, R59). -/

namespace Sys2Proof

/-- R59's list of reserved opcodes. -/
def isReservedOp (op : Byte) : Bool :=
  let v := op.toNat
  v == 0x00 || (0x04 ≤ v && v ≤ 0x0F) || (0x13 ≤ v && v ≤ 0x1F) || (0x23 ≤ v && v ≤ 0x2F)
    || (0x32 ≤ v && v ≤ 0x3F) || (0x44 ≤ v && v ≤ 0xFE)

/-- A list whose length the count `n : u16` of R57 can hold. -/
def countFits (bs : List Byte) : Bool := bs.length ≤ 65535

/-- A payload whose length the frame's length byte can hold (R50). -/
def payloadFits (p : List Byte) : Bool := p.length ≤ Config.maxPayload

/-- The setting codes of R54 at offsets 1 to 4; the baud code at offset 0 is the open parameter's. -/
def codesMapped (c1 c2 c3 c4 : Byte) : Bool :=
  (c1 == 1#8 || c1 == 2#8) && (c2 == 1#8 || c2 == 2#8 || c2 == 3#8)
    && (c3 == 1#8 || c3 == 2#8 || c3 == 3#8) && (c4 == 1#8 || c4 == 2#8)

/-- The instruction has an encoding of its own. -/
def WellFormed : Instr → Bool
  | .enc _ p => countFits p
  | .chk bs => countFits bs
  | .send bs => countFits bs
  | .reserved op => isReservedOp op
  | .frameReconfigureUart _ c1 c2 c3 c4 => codesMapped c1 c2 c3 c4
  | .respAccepted p _ => payloadFits p
  | .respRejected p _ => payloadFits p
  | .respChecksumFailed p _ => payloadFits p
  | .respMalformed p _ => payloadFits p
  | .crcClr => true
  | .crcUpd _ => true
  | .crcRd => true
  | .start _ => true
  | .stop => true
  | .reconf _ _ _ _ _ => true
  | .rxByte _ => true
  | .tick => true
  | .rdMode => true
  | .rdFcnt => true
  | .rdFreq => true
  | .rdRxlen => true
  | .rst => true
  | .frameGetData => true
  | .frameStop => true

end Sys2Proof
end

