-- ==== Sys2Proof/Decode.lean ====
section
/-! DEFINITION. The decoder of the event trace (30_encoding.md R56 to R59) and of wire frames (R50 to R54), the
encoder written from the same tables, and the host's view of the opcode table's words. -/

namespace Sys2Proof

/-! ### Byte order of operands and response data (20_memory.md R39, 30_encoding.md R57) -/

/-- `n` of R57: the least significant byte first. -/
def halfOfBytes (b0 b1 : Byte) : Half := b0.setWidth 16 ||| (b1.setWidth 16 <<< 8)

/-- `baud` of R57: the least significant byte first. -/
def wordOfBytes (b0 b1 b2 b3 : Byte) : Word :=
  b0.setWidth 32 ||| (b1.setWidth 32 <<< 8) ||| (b2.setWidth 32 <<< 16) ||| (b3.setWidth 32 <<< 24)

/-- A 16-bit value as 2 bytes, least significant first (R39). -/
def le16 (v : Half) : List Byte := [v.extractLsb' 0 8, v.extractLsb' 8 8]

/-- `le32` of R108. -/
def le32 (v : Word) : List Byte :=
  [v.extractLsb' 0 8, v.extractLsb' 8 8, v.extractLsb' 16 8, v.extractLsb' 24 8]

/-! ### Opcodes (the table of R56) -/

/-- CRC_CLR. -/
def Op.crcClr : Byte := 0x01#8
/-- CRC_UPD. -/
def Op.crcUpd : Byte := 0x02#8
/-- CRC_RD. -/
def Op.crcRd : Byte := 0x03#8
/-- ENC. -/
def Op.enc : Byte := 0x10#8
/-- CHK. -/
def Op.chk : Byte := 0x11#8
/-- SEND. -/
def Op.send : Byte := 0x12#8
/-- START. -/
def Op.start : Byte := 0x20#8
/-- STOP. -/
def Op.stop : Byte := 0x21#8
/-- RECONF. -/
def Op.reconf : Byte := 0x22#8
/-- RX_BYTE. -/
def Op.rxByte : Byte := 0x30#8
/-- TICK. -/
def Op.tick : Byte := 0x31#8
/-- RD_MODE. -/
def Op.rdMode : Byte := 0x40#8
/-- RD_FCNT. -/
def Op.rdFcnt : Byte := 0x41#8
/-- RD_FREQ. -/
def Op.rdFreq : Byte := 0x42#8
/-- RD_RXLEN. -/
def Op.rdRxlen : Byte := 0x43#8
/-- RST. -/
def Op.rst : Byte := 0xFF#8

/-! ### Decoding -/

/-- Why bytes are no instruction. -/
inductive Reject where
  /-- no byte is pending -/
  | noInput
  /-- the trace ends inside an event (R58, 60_exceptions.md R152 `TraceTruncated`) -/
  | traceTruncated
  /-- the bytes do not begin with one of the three command frames CTL sends (R52) -/
  | notCommandFrame
deriving DecidableEq, Repr

/-- What the decoder answers: an instruction and the bytes after it, or a named rejection. -/
inductive Decoded where
  | ok (i : Instr) (rest : List Byte)
  | reject (r : Reject)
deriving DecidableEq, Repr

/-- The `n` operand bytes that follow a count (R57), and the bytes after them. -/
def takeCounted (n : Half) (bs : List Byte) (make : List Byte → Instr) : Decoded :=
  if n.toNat ≤ bs.length then .ok (make (bs.take n.toNat)) (bs.drop n.toNat)
  else .reject .traceTruncated

/-- An event with one operand byte. -/
def decodeOne (bs : List Byte) (make : Byte → Instr) : Decoded :=
  match bs with
  | b :: rest => .ok (make b) rest
  | [] => .reject .traceTruncated

/-- A count of two bytes, then that many bytes (CHK, SEND). -/
def decodeCounted (bs : List Byte) (make : List Byte → Instr) : Decoded :=
  match bs with
  | n0 :: n1 :: rest => takeCounted (halfOfBytes n0 n1) rest make
  | _ => .reject .traceTruncated

/-- ENC: the kind byte, then a counted payload. -/
def decodeEnc (bs : List Byte) : Decoded :=
  match bs with
  | k :: rest => decodeCounted rest (.enc k)
  | [] => .reject .traceTruncated

/-- RECONF: eight operand bytes. -/
def decodeReconf (bs : List Byte) : Decoded :=
  match bs with
  | b0 :: b1 :: b2 :: b3 :: d :: st :: p :: f :: rest => .ok (.reconf (wordOfBytes b0 b1 b2 b3) d st p f) rest
  | _ => .reject .traceTruncated

/-- The operands after the opcode byte `op`; an opcode no event has is RESERVED (R59). -/
def decodeOperands (op : Byte) (bs : List Byte) : Decoded :=
  if op = Op.crcClr then .ok .crcClr bs
  else if op = Op.crcUpd then decodeOne bs .crcUpd
  else if op = Op.crcRd then .ok .crcRd bs
  else if op = Op.enc then decodeEnc bs
  else if op = Op.chk then decodeCounted bs .chk
  else if op = Op.send then decodeCounted bs .send
  else if op = Op.start then decodeOne bs .start
  else if op = Op.stop then .ok .stop bs
  else if op = Op.reconf then decodeReconf bs
  else if op = Op.rxByte then decodeOne bs .rxByte
  else if op = Op.tick then .ok .tick bs
  else if op = Op.rdMode then .ok .rdMode bs
  else if op = Op.rdFcnt then .ok .rdFcnt bs
  else if op = Op.rdFreq then .ok .rdFreq bs
  else if op = Op.rdRxlen then .ok .rdRxlen bs
  else if op = Op.rst then .ok .rst bs
  else .ok (.reserved op) bs

/-- The event at the front of a trace (R56, R58). -/
def decodeEvent (bs : List Byte) : Decoded :=
  match bs with
  | [] => .reject .noInput
  | op :: rest => decodeOperands op rest

/-- The parts of a complete length-delimited frame at the front of a byte list (R50, R51): kind, payload, checksum
byte, rest. Only the marker and the declared length are looked at. -/
def splitFrame (bs : List Byte) : Option (Byte × List Byte × Byte × List Byte) :=
  match bs with
  | m :: k :: l :: rest =>
    if m = Config.marker ∧ l.toNat < rest.length then
      some (k, rest.take l.toNat, rest.getD l.toNat 0#8, rest.drop (l.toNat + 1))
    else none
  | _ => none

/-- The command frame with kind `k`, payload `p` (R52), for the kinds and payloads CTL sends. -/
def commandFrame (k : Byte) (p : List Byte) : Option Instr :=
  match p with
  | [] => if k = Config.cmdGetData then some .frameGetData else if k = Config.cmdStop then some .frameStop else none
  | [c0, c1, c2, c3, c4] =>
    if k = Config.cmdReconf ∧ codesMapped c1 c2 c3 c4 then some (.frameReconfigureUart c0 c1 c2 c3 c4) else none
  | _ => none

/-- A frame on its way to the device: one of R52's three, with the checksum R50 gives it. -/
def decodeWireOut (bs : List Byte) : Decoded :=
  match bs with
  | [] => .reject .noInput
  | _ =>
    match splitFrame bs with
    | some (k, p, c, rest) =>
      if c = crc8 (frameBody k p) then
        match commandFrame k p with
        | some i => .ok i rest
        | none => .reject .notCommandFrame
      else .reject .notCommandFrame
    | none => .reject .notCommandFrame

/-- The response frame with kind `k` (R53), whatever its checksum byte (R130 checks none). -/
def responseFrame (k : Byte) (p : List Byte) (c : Byte) : Option Instr :=
  if k = Config.rspAccepted then some (.respAccepted p c)
  else if k = Config.rspRejected then some (.respRejected p c)
  else if k = Config.rspChecksumFailed then some (.respChecksumFailed p c)
  else if k = Config.rspMalformed then some (.respMalformed p c)
  else none

/-- Bytes from the device: a complete frame of one of R53's kinds as a whole, anything else as one received byte.
Both are deliveries of the same bytes in the same order (R132; log entry 5). -/
def decodeWireIn (bs : List Byte) : Decoded :=
  match bs with
  | [] => .reject .noInput
  | b :: tail =>
    match splitFrame (b :: tail) with
    | some (k, p, c, rest) =>
      match responseFrame k p c with
      | some i => .ok i rest
      | none => .ok (.rxByte b) tail
    | none => .ok (.rxByte b) tail

/-- The instruction at the front of the bytes that stand on a channel. Total: every byte list has an answer. -/
def decode (ch : Channel) (bs : List Byte) : Decoded :=
  match ch with
  | .events => decodeEvent bs
  | .wireOut => decodeWireOut bs
  | .wireIn => decodeWireIn bs

/-! ### Encoding -/

/-- A byte list behind its 16-bit count (R57). -/
def encodeCounted (bs : List Byte) : List Byte := le16 (BitVec.ofNat 16 bs.length) ++ bs

/-- The bytes of an instruction on its channel (R56, R57; R50, R52, R53). -/
def encode : Instr → List Byte
  | .crcClr => [Op.crcClr]
  | .crcUpd b => [Op.crcUpd, b]
  | .crcRd => [Op.crcRd]
  | .enc kind p => Op.enc :: kind :: encodeCounted p
  | .chk bs => Op.chk :: encodeCounted bs
  | .send bs => Op.send :: encodeCounted bs
  | .start tag => [Op.start, tag]
  | .stop => [Op.stop]
  | .reconf baud d st p f => Op.reconf :: le32 baud ++ [d, st, p, f]
  | .rxByte b => [Op.rxByte, b]
  | .tick => [Op.tick]
  | .rdMode => [Op.rdMode]
  | .rdFcnt => [Op.rdFcnt]
  | .rdFreq => [Op.rdFreq]
  | .rdRxlen => [Op.rdRxlen]
  | .rst => [Op.rst]
  | .reserved op => [op]
  | .frameGetData => frameOf Config.cmdGetData []
  | .frameStop => frameOf Config.cmdStop []
  | .frameReconfigureUart c0 c1 c2 c3 c4 => frameOf Config.cmdReconf [c0, c1, c2, c3, c4]
  | .respAccepted p c => frameWith Config.rspAccepted p c
  | .respRejected p c => frameWith Config.rspRejected p c
  | .respChecksumFailed p c => frameWith Config.rspChecksumFailed p c
  | .respMalformed p c => frameWith Config.rspMalformed p c

/-- The length of an instruction's encoding (R58 for events, R51 for frames). -/
def encodedLength : Instr → Nat
  | .crcClr => 1
  | .crcUpd _ => 2
  | .crcRd => 1
  | .enc _ p => 4 + p.length
  | .chk bs => 3 + bs.length
  | .send bs => 3 + bs.length
  | .start _ => 2
  | .stop => 1
  | .reconf _ _ _ _ _ => 9
  | .rxByte _ => 2
  | .tick => 1
  | .rdMode => 1
  | .rdFcnt => 1
  | .rdFreq => 1
  | .rdRxlen => 1
  | .rst => 1
  | .reserved _ => 1
  | .frameGetData => 4
  | .frameStop => 4
  | .frameReconfigureUart _ _ _ _ _ => 9
  | .respAccepted p _ => 4 + p.length
  | .respRejected p _ => 4 + p.length
  | .respChecksumFailed p _ => 4 + p.length
  | .respMalformed p _ => 4 + p.length

/-! ### The words of spec/opcode_table.json

The table gives an event row its opcode byte (8 bits) and a frame row the two bytes `AA kind` as the 16-bit number
0xAA<kind>, that is, the first byte in bits 15..8 (log entry 6). -/

/-- The channel of a row that the table gives `nbits` bits. -/
def tableChannel (nbits : Nat) : Channel := if nbits = 16 then .wireIn else .events

/-- The first `nbits / 8` bytes of the row's word, first byte first. -/
def tableHead (nbits w : Nat) : List Byte :=
  if nbits = 16 then [BitVec.ofNat 8 (w / 256), BitVec.ofNat 8 w]
  else (List.range (nbits / 8)).map fun j => BitVec.ofNat 8 (w / 256 ^ j)

/-- The row's word with operand bytes of zeros behind it, up to the longest instruction with zero counts (9 bytes). -/
def tablePadded (nbits w : Nat) : List Byte := tableHead nbits w ++ List.replicate 8 0#8

/-- The bytes of exactly the one instruction the padded word begins with. -/
def tableBytes (nbits w : Nat) : List Byte :=
  match decode (tableChannel nbits) (tablePadded nbits w) with
  | .ok _ rest => (tablePadded nbits w).take ((tablePadded nbits w).length - rest.length)
  | .reject _ => tablePadded nbits w

/-- The instruction the decoder reads from a word of the opcode table. -/
def decodeTableWord (nbits w : Nat) : Option Instr :=
  match decode (tableChannel nbits) (tablePadded nbits w) with
  | .ok i _ => some i
  | .reject _ => none

end Sys2Proof
end

