-- ==== Sys2Proof/Machine/State.lean ====
section
/-! DEFINITION. The state of CRC8FRM (10_state.md R14), its output records (R23), and the reasons a run stops. -/

namespace Sys2Proof.Machine

/-- MODE (R16). The value 3 is never held, so there is no fourth constructor. -/
inductive Mode where
  /-- no active callback -/
  | idle
  /-- a callback is registered and receives every extracted frame -/
  | streaming
  /-- terminal until restarted, reached by STOP -/
  | stopped
deriving DecidableEq, Repr

/-- The status of a `Resp` record (30_encoding.md R60). -/
inductive Status where
  | ok
  | transportNotOpen
  | shortWrite
  | badMarker
  | truncated
  | checksumFailed
  | payloadTooLarge
  | unmappedSetting
  | illegalOp
deriving DecidableEq, Repr

/-- One record of the output history (R23). -/
inductive Record where
  /-- `bytes` offered to the transport, which accepted the first `k` -/
  | txWrite (bytes : List Byte) (k : Nat)
  /-- one extracted frame dispatched to the consumer `tag` -/
  | frameOut (tag : Byte) (bytes : List Byte) (crcOk : Bool)
  /-- the reply to a command-port event -/
  | resp (op : Byte) (status : Status) (data : List Byte)
deriving DecidableEq, Repr

/-- The reasons FAULT records (60_exceptions.md R152). The machine goes on with FAULT written, as R152 says, so these
stand in `State.fault` and no meaning answers with the fault outcome. Each is safe: nothing is claimed of a faulted run. -/
inductive Fault where
  /-- raised by every event but RST before the first RST (R25) -/
  | notReset
  /-- raised by RxAppend at a full buffer (20_memory.md R31); unreachable (R34) -/
  | rxOverflow
  /-- raised by RxPeek and RxConsume beyond RXLEN (R32, R33); unreachable (R34) -/
  | insufficientData
deriving DecidableEq, Repr

/-- Why a step has no instruction to run. Each is safe: the step answers no state. -/
inductive Refusal where
  /-- raised by an arm of `exec` whose instruction has no meaning yet -/
  | notModelled (mnemonic : String)
  /-- raised by `step`: the trace ends inside an event (30_encoding.md R58; 60_exceptions.md R152 `TraceTruncated`) -/
  | traceTruncated
  /-- raised by `step`: the bytes on the outgoing wire do not begin with a command frame of R52 -/
  | notCommandFrame
deriving DecidableEq, Repr

/-- The storage of the block, a list of bytes with index 0 the oldest (20_memory.md R30, R36). -/
abbrev Memory := List Byte

/-- The form RXBUF keeps: at most RXBUF_CAP bytes (R14, R20). -/
def Memory.wf (m : Memory) : Bool := m.length ≤ Config.rxbufCap

/-- The state. The fields from `channel` on are the environment's pending inputs (R22), no registers of the block. -/
structure State where
  /-- CRC, the accumulator of CRCU (R15) -/
  crc : Byte
  /-- MODE (R16) -/
  mode : Mode
  /-- TAG, the registered consumer (R17) -/
  tag : Byte
  /-- FCNT, the frame counter (R18) -/
  fcnt : Word
  /-- FREQ, the snapshot of FCNT (R19) -/
  freq : Word
  /-- RXBUF, the receive FIFO (R20) -/
  rxbuf : Memory
  /-- RESET_SEEN (R25) -/
  resetSeen : Bool
  /-- FAULT (60_exceptions.md R152) -/
  fault : Option Fault
  /-- the output history, oldest record first (R23) -/
  history : List Record
  /-- the channel on which the pending bytes stand -/
  channel : Channel
  /-- the pending bytes -/
  trace : List Byte
  /-- the pending samples of TRANSPORT_OPEN, next first -/
  openIn : List Bool
  /-- the pending TX_ACCEPT counts, next first -/
  acceptIn : List Nat
  /-- how many free values have been drawn -/
  drawn : Nat
deriving DecidableEq, Repr

/-- RXLEN (R20). -/
def State.rxlen (s : State) : Nat := s.rxbuf.length

/-- The byte of RXBUF at index `i`, if the buffer is that long: `MemRead` of one byte (R12). -/
def State.rxByteAt (s : State) (i : Nat) : Option Byte := s.rxbuf[i]?

/-- The machine right after reset: R26's values, no fault, an empty history, and no pending input (log entries 1, 2). -/
def State.reset : State where
  crc := 0x00#8
  mode := .idle
  tag := 0x00#8
  fcnt := 0#32
  freq := 0#32
  rxbuf := []
  resetSeen := true
  fault := none
  history := []
  channel := .events
  trace := []
  openIn := []
  acceptIn := []
  drawn := 0

/-- A state at power-up, before the first RST (R25, R26): every register holds no value, so any value is admitted. -/
def State.PowerUp (s : State) : Prop :=
  s.resetSeen = false ∧ s.fault = none ∧ s.history = []

/-- The three outcomes of an instruction on this machine. -/
abbrev Result := Host.Outcome State Fault Refusal

end Sys2Proof.Machine
end

