-- ==== Sys2Proof/Machine/Flags.lean ====
section
/-! DEFINITION. The outcomes an event reports. The block has no flag register (10_state.md R14): an outcome is the
status byte of a `Resp` (30_encoding.md R60) or the `crc_ok` bit of a `FrameOut` (43_rx_sync.md R131). -/

namespace Sys2Proof.Machine

/-- The status byte (R60). -/
def Status.code : Status → Byte
  | .ok => 0x00#8
  | .transportNotOpen => 0x01#8
  | .shortWrite => 0x02#8
  | .badMarker => 0x03#8
  | .truncated => 0x04#8
  | .checksumFailed => 0x05#8
  | .payloadTooLarge => 0x06#8
  | .unmappedSetting => 0x07#8
  | .illegalOp => 0x08#8

/-- The encoding of MODE (R16). -/
def Mode.code : Mode → BitVec 2
  | .idle => 0#2
  | .streaming => 1#2
  | .stopped => 2#2

/-- `crc_ok(f)` of 41_codec.md R95, for a frame of length at least 4. -/
def crcOk (f : List Byte) : Bool :=
  crc8 (slice 0 (f.length - 1) f) == f.getD (f.length - 1) 0#8

/-- The status `tx_write` returns for `n` bytes offered and `k` accepted (42_engine.md R100). -/
def writeStatus (n k : Nat) : Status := if k < n then .shortWrite else .ok

end Sys2Proof.Machine
end

