-- ==== Sys2Proof/Machine/Ops.lean ====
section
/-! DEFINITION. The named operations the meanings share: recording a fault and gating an event (60_exceptions.md R150,
R152), output records (00_scope.md R12), the environment's draws (10_state.md R22), the transmit primitive (42_engine.md
R100) and the receive-buffer primitives (20_memory.md R31 to R33). -/

namespace Sys2Proof.Machine

/-! ### Faults and the gate in front of every event -/

/-- `fault <Reason>` (R12, R152): the block's only entry into an exceptional condition. It writes FAULT; there is no
saved state, no mode change and no transfer of control (R150). -/
def State.recordFault (s : State) (r : Fault) : State := { s with fault := some r }

/-- An event other than RST: without effect once a fault is recorded (R152), the fault NotReset before the first RST
(R25), its own effect otherwise. -/
def State.atEvent (s : State) (effect : State → State) : State :=
  if s.fault.isSome then s
  else if s.resetSeen then effect s
  else s.recordFault .notReset

/-! ### Output records -/

/-- `emit` (R12): append one record to the output history. -/
def State.emit (s : State) (r : Record) : State := { s with history := s.history ++ [r] }

/-- `respond(status, data)` (R12), with the event's opcode (R60). Where it ends a rule early it is `raise`. -/
def State.respond (s : State) (op : Byte) (st : Status) (data : List Byte) : State := s.emit (.resp op st data)

/-! ### Register writes -/

/-- MODE and TAG are written together, by START, STOP and RECONF (R16, R17). -/
def State.setConsumer (s : State) (m : Mode) (tag : Byte) : State := { s with mode := m, tag := tag }

/-! ### Draws from the environment -/

/-- TRANSPORT_OPEN as START samples it: the next listed sample, else a free value (log entry 2). -/
def State.sampleOpen (s : State) : Bool :=
  match s.openIn with
  | b :: _ => b
  | [] => Config.freeOpen s.drawn

/-- The state after one sample of TRANSPORT_OPEN. -/
def State.afterOpen (s : State) : State :=
  match s.openIn with
  | _ :: bs => { s with openIn := bs }
  | [] => { s with drawn := s.drawn + 1 }

/-- `draw k in 0..n` (R100): the next listed count, else a free value; no more than `n` in either case. -/
def State.drawAccept (s : State) (n : Nat) : Nat :=
  match s.acceptIn with
  | k :: _ => min k n
  | [] => min (Config.freeAccept s.drawn) n

/-- The state after one TX_ACCEPT draw. -/
def State.afterAccept (s : State) : State :=
  match s.acceptIn with
  | _ :: ks => { s with acceptIn := ks }
  | [] => { s with drawn := s.drawn + 1 }

/-! ### The transmit primitive -/

/-- `tx_write(bs)` of R100: one write attempt, its record, and its status. -/
def State.txWrite (s : State) (bs : List Byte) : Status × State :=
  (writeStatus bs.length (s.drawAccept bs.length), s.afterAccept.emit (.txWrite bs (s.drawAccept bs.length)))

/-! ### The receive-buffer primitives -/

/-- `RxAppend(b)` of R31. -/
def State.rxAppend (s : State) (b : Byte) : Except Fault State :=
  if s.rxlen = Config.rxbufCap then .error .rxOverflow
  else .ok { s with rxbuf := s.rxbuf ++ [b] }

/-- `RxPeek(n)` of R32. -/
def State.rxPeek (s : State) (n : Nat) : Except Fault (List Byte) :=
  if s.rxlen < n then .error .insufficientData else .ok (s.rxbuf.take n)

/-- `RxConsume(n)` of R33. -/
def State.rxConsume (s : State) (n : Nat) : Except Fault (List Byte × State) :=
  match s.rxPeek n with
  | .error r => .error r
  | .ok v => .ok (v, { s with rxbuf := s.rxbuf.drop n })

end Sys2Proof.Machine
end

