-- ==== Sys2Proof/Machine/Crcu.lean ====
section
/-! DEFINITION. CRCU, the events on the CRC register (40_crc.md R82 to R84). -/

namespace Sys2Proof.Machine

/-- CRC_CLR (R83). -/
def execCrcClr (s : State) : Result :=
  .next (s.atEvent fun s => { s with crc := Config.crcInit }.respond Op.crcClr .ok [])

/-- CRC_UPD b (R82). -/
def execCrcUpd (b : Byte) (s : State) : Result :=
  .next (s.atEvent fun s => { s with crc := crc8Step s.crc b }.respond Op.crcUpd .ok [])

/-- CRC_RD (R84). -/
def execCrcRd (s : State) : Result :=
  .next (s.atEvent fun s => s.respond Op.crcRd .ok [s.crc])

end Sys2Proof.Machine
end

