-- ==== Sys2Proof/Machine/Codec.lean ====
section
/-! DEFINITION. CODEC, the frame encoder and checker (41_codec.md R90, R92). Neither reads nor writes a register. -/

namespace Sys2Proof.Machine

/-- `encode(kind, p)` of R90. -/
def encodeFrame (kind : Byte) (p : List Byte) : Except Status (List Byte) :=
  if Config.maxPayload < p.length then .error .payloadTooLarge else .ok (frameOf kind p)

/-- `check(bs)` of R92, the tests in the rule's order. -/
def checkFrame (bs : List Byte) : Status × List Byte :=
  if bs.length < 4 then (.truncated, [])
  else if bs.getD 0 0#8 ≠ Config.marker then (.badMarker, [])
  else
    let l := bs.getD 2 0#8
    if bs.length < frameLength l then (.truncated, [])
    else
      let p := slice 3 (3 + l.toNat) bs
      if crc8 (slice 0 (3 + l.toNat) bs) ≠ bs.getD (3 + l.toNat) 0#8 then
        (.checksumFailed, [Config.rspChecksumFailed, 1#8, l] ++ p)
      else (.ok, [bs.getD 1 0#8, 0#8, l] ++ p)

/-- ENC kind, [p] (R90). -/
def execEnc (kind : Byte) (p : List Byte) (s : State) : Result :=
  .next (s.atEvent fun s =>
    match encodeFrame kind p with
    | .ok f => s.respond Op.enc .ok f
    | .error st => s.respond Op.enc st [])

/-- CHK [bs] (R92). -/
def execChk (bs : List Byte) (s : State) : Result :=
  .next (s.atEvent fun s => s.respond Op.chk (checkFrame bs).1 (checkFrame bs).2)

end Sys2Proof.Machine
end

