-- ==== Sys2Proof/Machine/Operands.lean ====
section
/-! DEFINITION. The setting operands of RECONF (30_encoding.md R54, R57; 42_engine.md R104). The byte-list, count and
rate operands of R57 are assembled in Decode.lean. -/

namespace Sys2Proof.Machine

/-- The data-bits code: 7 and 8 are mapped (R54). -/
def dataBitsCode (dbits : Byte) : Option Byte :=
  if dbits = 7#8 then some 1#8 else if dbits = 8#8 then some 2#8 else none

/-- The stop-bits code, the operand in half bits (R54, R57). -/
def stopBitsCode (sbits : Byte) : Option Byte :=
  if sbits = 2#8 then some 1#8 else if sbits = 3#8 then some 2#8 else if sbits = 4#8 then some 3#8 else none

/-- The parity code: none, even, odd are mapped; mark and space are not (R54, R57). -/
def parityCode (par : Byte) : Option Byte :=
  if par = 0#8 then some 1#8 else if par = 1#8 then some 2#8 else if par = 2#8 then some 3#8 else none

/-- The flow-control code: none and hardware are mapped; software is not (R54, R57). -/
def flowCode (flow : Byte) : Option Byte :=
  if flow = 0#8 then some 1#8 else if flow = 1#8 then some 2#8 else none

/-- `map_settings` of R104: the 5-byte reconfiguration payload, or UNMAPPED_SETTING for any unmapped field. -/
def mapSettings (baud : Word) (dbits sbits par flow : Byte) : Except Status (List Byte) :=
  match Config.baudCode baud.toNat, dataBitsCode dbits, stopBitsCode sbits, parityCode par, flowCode flow with
  | some bc, some dc, some sc, some pc, some fc => .ok [bc, dc, sc, pc, fc]
  | _, _, _, _, _ => .error .unmappedSetting

end Sys2Proof.Machine
end

