-- ==== Sys2Proof/Machine/Ctl.lean ====
section
/-! DEFINITION. CTL, the control state machine, the transmit path, the tick and the register reads (42_engine.md). -/

namespace Sys2Proof.Machine

/-- `send_frame(kind, p)` of R100. CTL's payloads are at most 5 bytes long, so the encoder never fails there. -/
def State.sendFrame (s : State) (kind : Byte) (p : List Byte) : Status × State :=
  match encodeFrame kind p with
  | .ok f => s.txWrite f
  | .error st => (st, s)

/-- Send a frame and respond with the status of the write, as R101 to R103 end. -/
def State.sendAndRespond (s : State) (op kind : Byte) (p : List Byte) : State :=
  (s.sendFrame kind p).2.respond op (s.sendFrame kind p).1 []

/-- START tag (R101). -/
def execStart (tag : Byte) (s : State) : Result :=
  .next (s.atEvent fun s =>
    if s.sampleOpen then (s.afterOpen.setConsumer .streaming tag).sendAndRespond Op.start Config.cmdGetData []
    else s.afterOpen.respond Op.start .transportNotOpen [])

/-- STOP (R102). -/
def execStop (s : State) : Result :=
  .next (s.atEvent fun s => (s.setConsumer .stopped 0x00#8).sendAndRespond Op.stop Config.cmdStop [])

/-- RECONF baud, dbits, sbits, par, flow (R103): the consumer is cleared before the mapping is tried. -/
def execReconf (baud : Word) (dbits sbits par flow : Byte) (s : State) : Result :=
  .next (s.atEvent fun s =>
    match mapSettings baud dbits sbits par flow with
    | .error st => (s.setConsumer .idle 0x00#8).respond Op.reconf st []
    | .ok codes => (s.setConsumer .idle 0x00#8).sendAndRespond Op.reconf Config.cmdReconf codes)

/-- SEND [bs] (R105). -/
def execSend (bs : List Byte) (s : State) : Result :=
  .next (s.atEvent fun s => (s.txWrite bs).2.respond Op.send (s.txWrite bs).1 [])

/-- TICK (R106). -/
def execTick (s : State) : Result :=
  .next (s.atEvent fun s => { s with freq := s.fcnt, fcnt := 0#32 })

/-- RD_MODE (R107). -/
def execRdMode (s : State) : Result :=
  .next (s.atEvent fun s => s.respond Op.rdMode .ok [s.mode.code.setWidth 8, s.tag])

/-- RD_FCNT (R108). -/
def execRdFcnt (s : State) : Result :=
  .next (s.atEvent fun s => s.respond Op.rdFcnt .ok (le32 s.fcnt))

/-- RD_FREQ (R109). -/
def execRdFreq (s : State) : Result :=
  .next (s.atEvent fun s => s.respond Op.rdFreq .ok (le32 s.freq))

/-- RD_RXLEN (R110). -/
def execRdRxlen (s : State) : Result :=
  .next (s.atEvent fun s => s.respond Op.rdRxlen .ok (le16 (BitVec.ofNat 16 s.rxlen)))

/-- RESERVED op (30_encoding.md R59). -/
def execReserved (op : Byte) (s : State) : Result :=
  .next (s.atEvent fun s => s.respond op .illegalOp [])

end Sys2Proof.Machine
end

