-- ==== Sys2Proof/Machine/Rxs.lean ====
section
/-! DEFINITION. RXS, the frame sync and resynchronisation detector (43_rx_sync.md R130, R131). -/

namespace Sys2Proof.Machine

/-- Step 4 of R130 after the consume: dispatch the frame with its advisory bit (R131) and count it (R18). -/
def State.dispatch (s : State) (f : List Byte) : State :=
  { s.emit (.frameOut s.tag f (crcOk f)) with fcnt := s.fcnt + 1#32 }

/-- The loop of R130. Every turn removes at least one byte, so as many turns as bytes are enough. -/
def State.rxLoop : Nat → State → State
  | 0, s => s
  | fuel + 1, s =>
    if s.rxlen < Config.hdrLen then s
    else
      match s.rxPeek 3 with
      | .error r => s.recordFault r
      | .ok h =>
        if h.getD 0 0#8 ≠ Config.marker then
          match s.rxConsume 1 with
          | .error r => s.recordFault r
          | .ok (_, s1) => State.rxLoop fuel s1
        else if s.rxlen < frameLength (h.getD 2 0#8) then s
        else
          match s.rxConsume (frameLength (h.getD 2 0#8)) with
          | .error r => s.recordFault r
          | .ok (f, s1) => State.rxLoop fuel (s1.dispatch f)

/-- The effect of RX_BYTE b (R130): discarded outside Streaming, else appended and the loop run. -/
def State.receive (s : State) (b : Byte) : State :=
  if s.mode ≠ .streaming then s
  else
    match s.rxAppend b with
    | .error r => s.recordFault r
    | .ok s1 => s1.rxLoop s1.rxlen

/-- RX_BYTE b (R130). -/
def execRxByte (b : Byte) (s : State) : Result :=
  .next (s.atEvent fun s => s.receive b)

/-- RX_CHUNK [bs] of 30_encoding.md R64: the RX_BYTE events of its bytes, in order. -/
def State.receiveAll (s : State) : List Byte → State
  | [] => s
  | b :: bs => State.receiveAll (s.atEvent fun s => s.receive b) bs

end Sys2Proof.Machine
end

