-- ==== Sys2Proof/Machine/Frames.lean ====
section
/-! DEFINITION. The wire frames of the opcode table (30_encoding.md R52, R53). The spec gives a frame no event of its own.
A command frame has the effect of the primitive that sends it, `send_frame` of 42_engine.md R100 (log entry 4); a response
frame has the effect of the pseudo-operation RX_CHUNK of R64 over its bytes (log entry 5). -/

namespace Sys2Proof.Machine

/-- FRAME_GetData, `AA 01 00 DA` (R52): the frame is offered to the transport. -/
def execFrameGetData (s : State) : Result :=
  .next (s.atEvent fun s => (s.sendFrame Config.cmdGetData []).2)

/-- FRAME_Stop, `AA 02 00 E5` (R52). -/
def execFrameStop (s : State) : Result :=
  .next (s.atEvent fun s => (s.sendFrame Config.cmdStop []).2)

/-- FRAME_ReconfigureUart, `AA 03 05 c0 c1 c2 c3 c4 crc` (R52). -/
def execFrameReconfigureUart (c0 c1 c2 c3 c4 : Byte) (s : State) : Result :=
  .next (s.atEvent fun s => (s.sendFrame Config.cmdReconf [c0, c1, c2, c3, c4]).2)

/-- RESP_KIND_Accepted (R53): the frame's bytes are received. -/
def execRespAccepted (p : List Byte) (c : Byte) (s : State) : Result :=
  .next (s.receiveAll (frameWith Config.rspAccepted p c))

/-- RESP_KIND_Rejected (R53). -/
def execRespRejected (p : List Byte) (c : Byte) (s : State) : Result :=
  .next (s.receiveAll (frameWith Config.rspRejected p c))

/-- RESP_KIND_ChecksumFailed (R53). -/
def execRespChecksumFailed (p : List Byte) (c : Byte) (s : State) : Result :=
  .next (s.receiveAll (frameWith Config.rspChecksumFailed p c))

/-- RESP_KIND_Malformed (R53). -/
def execRespMalformed (p : List Byte) (c : Byte) (s : State) : Result :=
  .next (s.receiveAll (frameWith Config.rspMalformed p c))

end Sys2Proof.Machine
end

