-- ==== Sys2Proof/Machine/Reset.lean ====
section
/-! DEFINITION. The reset line (70_reset_and_hazards.md R170). -/

namespace Sys2Proof.Machine

/-- The register values after RST (10_state.md R26). The history and FAULT stay, and so do the pending inputs. -/
def State.resetRegisters (s : State) : State :=
  { s with
    crc := 0x00#8, mode := .idle, tag := 0x00#8, fcnt := 0#32, freq := 0#32, rxbuf := [], resetSeen := true }

/-- RST (R170): without effect once a fault is recorded. -/
def execRst (s : State) : Result :=
  .next (if s.fault.isSome then s else s.resetRegisters)

end Sys2Proof.Machine
end

