-- ==== Sys2Proof/Machine/Dispatch.lean ====
section
/-! DEFINITION. One arm per instruction. -/

namespace Sys2Proof.Machine

-- The meaning of an instruction: one direct call per constructor.
def exec (i : Instr) (s : State) : Host.Outcome State Fault Refusal :=
  match i with
  | .crcClr => Sys2Proof.Machine.execCrcClr s
  | .crcUpd b => Sys2Proof.Machine.execCrcUpd b s
  | .crcRd => Sys2Proof.Machine.execCrcRd s
  | .enc kind p => Sys2Proof.Machine.execEnc kind p s
  | .chk bs => Sys2Proof.Machine.execChk bs s
  | .send bs => Sys2Proof.Machine.execSend bs s
  | .start tag => Sys2Proof.Machine.execStart tag s
  | .stop => Sys2Proof.Machine.execStop s
  | .reconf baud dbits sbits par flow => Sys2Proof.Machine.execReconf baud dbits sbits par flow s
  | .rxByte b => Sys2Proof.Machine.execRxByte b s
  | .tick => Sys2Proof.Machine.execTick s
  | .rdMode => Sys2Proof.Machine.execRdMode s
  | .rdFcnt => Sys2Proof.Machine.execRdFcnt s
  | .rdFreq => Sys2Proof.Machine.execRdFreq s
  | .rdRxlen => Sys2Proof.Machine.execRdRxlen s
  | .rst => Sys2Proof.Machine.execRst s
  | .reserved op => Sys2Proof.Machine.execReserved op s
  | .frameGetData => Sys2Proof.Machine.execFrameGetData s
  | .frameStop => Sys2Proof.Machine.execFrameStop s
  | .frameReconfigureUart c0 c1 c2 c3 c4 => Sys2Proof.Machine.execFrameReconfigureUart c0 c1 c2 c3 c4 s
  | .respAccepted p c => Sys2Proof.Machine.execRespAccepted p c s
  | .respRejected p c => Sys2Proof.Machine.execRespRejected p c s
  | .respChecksumFailed p c => Sys2Proof.Machine.execRespChecksumFailed p c s
  | .respMalformed p c => Sys2Proof.Machine.execRespMalformed p c s

end Sys2Proof.Machine
end

