-- ==== Sys2Proof/Machine/Step.lean ====
section
/-! DEFINITION. One step of the machine: the next pending event runs (00_scope.md R8). The block stores no program (R9);
what is fetched is the environment's trace (30_encoding.md R56). -/

namespace Sys2Proof.Machine

/-- The next pending instruction runs and its bytes are taken off the trace. With nothing pending the block does no work
(60_exceptions.md R164; log entry 1). Bytes that are no instruction are refused by name. -/
def step (s : State) : Host.Outcome State Fault Refusal :=
  match decode s.channel s.trace with
  | .ok i rest => exec i { s with trace := rest }
  | .reject .noInput => .next s
  | .reject .traceTruncated => .refused .traceTruncated
  | .reject .notCommandFrame => .refused .notCommandFrame

/-- The state with the one instruction of an opcode-table word pending, and nothing after it. -/
def State.withFetchWord (s : State) (nbits w : Nat) : State :=
  { s with channel := tableChannel nbits, trace := tableBytes nbits w }

end Sys2Proof.Machine
end

