-- ==== Sys2Proof/Safety.lean ====
section
/-! DEFINITION. What counts as a safe run, in the terms the statements use: the invariants of 10_state.md R24, runs of
several instructions (30_encoding.md R64), and the source's own whole-chunk loop (43_rx_sync.md R132). -/

namespace Sys2Proof.Machine

/-- Reset has been seen and no fault is recorded, so events have their effects (R25, R152). -/
abbrev State.Live (s : State) : Prop := s.fault = none ∧ s.resetSeen = true

/-- R24(c): never a complete frame, and never three or more bytes whose first is not the marker. -/
abbrev Framing (buf : List Byte) : Prop :=
  buf.length < 3 ∨ (buf.getD 0 0#8 = Config.marker ∧ buf.length < frameLength (buf.getD 2 0#8))

/-- The invariants of R24, (a) to (d). -/
abbrev State.Inv (s : State) : Prop :=
  s.mode.code ≠ 3#2 ∧ (s.mode ≠ .streaming → s.tag = 0x00#8) ∧ Framing s.rxbuf ∧ s.rxbuf.length ≤ 258

/-- A successful end of a run: no fault recorded (R152, 70_reset_and_hazards.md R180). -/
abbrev State.Safe (s : State) : Prop := s.fault = none

/-- Several instructions in order, stopping at the first that gives no next state. -/
def runAll : List Instr → State → Result
  | [], s => .next s
  | i :: is, s =>
    match exec i s with
    | .next s' => runAll is s'
    | .fault r => .fault r
    | .refused r => .refused r

/-- The events of the command port (the channel column of 30_encoding.md R56); each ends with one `Resp` (R60). -/
def isCommand : Instr → Bool
  | .rxByte _ => false
  | .tick => false
  | .rst => false
  | i => i.channel == .events

/-- A `Resp` record. -/
def Record.isResp : Record → Bool
  | .resp _ _ _ => true
  | .txWrite _ _ => false
  | .frameOut _ _ _ => false

/-- One call of a receive-buffer primitive that changes the buffer (20_memory.md R35). -/
inductive FifoOp where
  | append (b : Byte)
  | consume (n : Nat)
deriving DecidableEq, Repr

/-- A sequence of primitive calls: the bytes consumed, in order, and the final state, unless a call faults. -/
def runFifo : List FifoOp → State → Except Fault (List Byte × State)
  | [], s => .ok ([], s)
  | .append b :: ops, s =>
    match s.rxAppend b with
    | .error r => .error r
    | .ok s1 => runFifo ops s1
  | .consume n :: ops, s =>
    match s.rxConsume n with
    | .error r => .error r
    | .ok (v, s1) =>
      match runFifo ops s1 with
      | .error r => .error r
      | .ok (vs, s2) => .ok (v ++ vs, s2)

/-- The bytes a sequence of primitive calls appends, in order. -/
def appendedBytes : List FifoOp → List Byte
  | [] => []
  | .append b :: ops => b :: appendedBytes ops
  | .consume _ :: ops => appendedBytes ops

/-- The records that extracting frames for the consumer `tag` emits (R130 step 4, R131). -/
def frameRecords (tag : Byte) (fs : List (List Byte)) : List Record := fs.map fun f => .frameOut tag f (crcOk f)

/-- RX_CHUNK (R64). -/
def rxChunk (bs : List Byte) : List Instr := bs.map .rxByte

/-- CRC_BLOCK (R64). -/
def crcBlock (bs : List Byte) : List Instr := .crcClr :: bs.map .crcUpd ++ [.crcRd]

/-- SEND_CMD (R64): ENC, then, only if its status is OK, SEND of the data ENC responds with. ENC responds with what
`encodeFrame` gives (R90). -/
def sendCmd (kind : Byte) (p : List Byte) : List Instr :=
  match encodeFrame kind p with
  | .ok f => [.enc kind p, .send f]
  | .error _ => [.enc kind p]

/-- The extraction loop of the source over a whole buffer (the steps quoted in R130, as R132 runs them): the frames it
finds, in order, and the bytes it leaves. Every turn removes at least one byte, so fuel as long as the buffer is enough. -/
def extractAll : Nat → List Byte → List (List Byte) × List Byte
  | 0, buf => ([], buf)
  | fuel + 1, buf =>
    if buf.length < Config.hdrLen then ([], buf)
    else if buf.getD 0 0#8 ≠ Config.marker then extractAll fuel (buf.drop 1)
    else if buf.length < frameLength (buf.getD 2 0#8) then ([], buf)
    else
      (buf.take (frameLength (buf.getD 2 0#8)) :: (extractAll fuel (buf.drop (frameLength (buf.getD 2 0#8)))).1,
        (extractAll fuel (buf.drop (frameLength (buf.getD 2 0#8)))).2)

end Sys2Proof.Machine
end

