-- ==== Sys2Proof/Certificates/Slice0/Obligations.lean ====
section
/-! DEFINITION. The statements for the provers. Each docstring names the rule of spec/ it formalises. -/

namespace Sys2Proof.Machine

/-- The table T of 40_crc.md R85(b), as 95_test_vectors.md V12 prints it. -/
def printedCrcTable : List Byte :=
  [0x00, 0x07, 0x0E, 0x09, 0x1C, 0x1B, 0x12, 0x15, 0x38, 0x3F, 0x36, 0x31, 0x24, 0x23, 0x2A, 0x2D] ++
  [0x70, 0x77, 0x7E, 0x79, 0x6C, 0x6B, 0x62, 0x65, 0x48, 0x4F, 0x46, 0x41, 0x54, 0x53, 0x5A, 0x5D] ++
  [0xE0, 0xE7, 0xEE, 0xE9, 0xFC, 0xFB, 0xF2, 0xF5, 0xD8, 0xDF, 0xD6, 0xD1, 0xC4, 0xC3, 0xCA, 0xCD] ++
  [0x90, 0x97, 0x9E, 0x99, 0x8C, 0x8B, 0x82, 0x85, 0xA8, 0xAF, 0xA6, 0xA1, 0xB4, 0xB3, 0xBA, 0xBD] ++
  [0xC7, 0xC0, 0xC9, 0xCE, 0xDB, 0xDC, 0xD5, 0xD2, 0xFF, 0xF8, 0xF1, 0xF6, 0xE3, 0xE4, 0xED, 0xEA] ++
  [0xB7, 0xB0, 0xB9, 0xBE, 0xAB, 0xAC, 0xA5, 0xA2, 0x8F, 0x88, 0x81, 0x86, 0x93, 0x94, 0x9D, 0x9A] ++
  [0x27, 0x20, 0x29, 0x2E, 0x3B, 0x3C, 0x35, 0x32, 0x1F, 0x18, 0x11, 0x16, 0x03, 0x04, 0x0D, 0x0A] ++
  [0x57, 0x50, 0x59, 0x5E, 0x4B, 0x4C, 0x45, 0x42, 0x6F, 0x68, 0x61, 0x66, 0x73, 0x74, 0x7D, 0x7A] ++
  [0x89, 0x8E, 0x87, 0x80, 0x95, 0x92, 0x9B, 0x9C, 0xB1, 0xB6, 0xBF, 0xB8, 0xAD, 0xAA, 0xA3, 0xA4] ++
  [0xF9, 0xFE, 0xF7, 0xF0, 0xE5, 0xE2, 0xEB, 0xEC, 0xC1, 0xC6, 0xCF, 0xC8, 0xDD, 0xDA, 0xD3, 0xD4] ++
  [0x69, 0x6E, 0x67, 0x60, 0x75, 0x72, 0x7B, 0x7C, 0x51, 0x56, 0x5F, 0x58, 0x4D, 0x4A, 0x43, 0x44] ++
  [0x19, 0x1E, 0x17, 0x10, 0x05, 0x02, 0x0B, 0x0C, 0x21, 0x26, 0x2F, 0x28, 0x3D, 0x3A, 0x33, 0x34] ++
  [0x4E, 0x49, 0x40, 0x47, 0x52, 0x55, 0x5C, 0x5B, 0x76, 0x71, 0x78, 0x7F, 0x6A, 0x6D, 0x64, 0x63] ++
  [0x3E, 0x39, 0x30, 0x37, 0x22, 0x25, 0x2C, 0x2B, 0x06, 0x01, 0x08, 0x0F, 0x1A, 0x1D, 0x14, 0x13] ++
  [0xAE, 0xA9, 0xA0, 0xA7, 0xB2, 0xB5, 0xBC, 0xBB, 0x96, 0x91, 0x98, 0x9F, 0x8A, 0x8D, 0x84, 0x83] ++
  [0xDE, 0xD9, 0xD0, 0xD7, 0xC2, 0xC5, 0xCC, 0xCB, 0xE6, 0xE1, 0xE8, 0xEF, 0xFA, 0xFD, 0xF4, 0xF3]

end Sys2Proof.Machine

open Sys2Proof Sys2Proof.Machine

/-! ### Reset, the gate, faults -/

/-- R170: RST writes R26's register values and nothing else; with a fault recorded it does nothing. -/
def Obligations.ResetEventWritesTheRuleValues : Prop :=
  encode .rst = [0xFF#8] ∧
  (∀ s : State, s.fault = none →
    exec .rst s = .next { s with
      crc := 0x00#8, mode := .idle, tag := 0x00#8, fcnt := 0#32, freq := 0#32, rxbuf := [], resetSeen := true }) ∧
  (∀ s : State, s.fault ≠ none → exec .rst s = .next s)

/-- R26: the values after RST, in `State.reset` and after a first RST from any power-up state. -/
def Obligations.ResetStateHoldsTheRuleValues : Prop :=
  (State.reset.crc = 0x00#8 ∧ State.reset.mode.code = 0#2 ∧ State.reset.tag = 0x00#8 ∧ State.reset.fcnt = 0#32 ∧
    State.reset.freq = 0#32 ∧ State.reset.rxbuf = [] ∧ State.reset.rxlen = 0 ∧ State.reset.resetSeen = true ∧
    State.reset.fault = none ∧ State.reset.history = []) ∧
  (∀ s : State, s.PowerUp → ∃ t, exec .rst s = .next t ∧
    t.crc = State.reset.crc ∧ t.mode = State.reset.mode ∧ t.tag = State.reset.tag ∧ t.fcnt = State.reset.fcnt ∧
    t.freq = State.reset.freq ∧ t.rxbuf = State.reset.rxbuf ∧ t.resetSeen = State.reset.resetSeen ∧
    t.fault = State.reset.fault ∧ t.history = State.reset.history) ∧
  (∀ s t : State, exec .rst s = .next t → t.fault = s.fault ∧ t.history = s.history)

/-- R25: before the first RST, every other instruction records the fault NotReset and does nothing else. That the wire frames
fault as the events do is the model's choice (log entries 4, 5). -/
def Obligations.EventBeforeResetFaults : Prop :=
  ∀ (i : Instr) (s : State), i ≠ .rst → s.fault = none → s.resetSeen = false →
    exec i s = .next { s with fault := some .notReset }

/-- R152: while a fault is recorded no instruction, RST included, has any effect. -/
def Obligations.RecordedFaultIsSticky : Prop :=
  ∀ (i : Instr) (s : State), s.fault ≠ none → exec i s = .next s

/-- R34, R179: where the invariants of R24 hold, every instruction completes and no fault is recorded. -/
def Obligations.LiveMachineNeverFaults : Prop :=
  ∀ (i : Instr) (s : State), s.Live → s.Inv → ∃ t, exec i s = .next t ∧ t.Live

/-! ### CRCU -/

/-- R80: eight iterations of shift, conditional XOR with POLY, from `c ^ b`. -/
def Obligations.CrcStepFollowsTheBitLoop : Prop :=
  (∀ c b : Byte, crc8Step c b =
    (List.range 8).foldl (fun x _ => if x.msb then (x <<< 1) ^^^ 0x07#8 else x <<< 1) (c ^^^ b)) ∧
  crc8Step 0x00#8 0x00#8 = 0x00#8 ∧ crc8Step 0x00#8 0x01#8 = 0x07#8 ∧ crc8Step 0x00#8 0x80#8 = 0x89#8 ∧
  crc8Step 0xFF#8 0x00#8 = 0xF3#8

/-- R81: the CRC of a byte list, from 0x00 with no final XOR. -/
def Obligations.CrcOfBytesFoldsTheStep : Prop :=
  (∀ bs : List Byte, crc8 bs = bs.foldl crc8Step 0x00#8) ∧
  crc8 [] = 0x00#8 ∧ crc8 [0xAA#8] = 0x5F#8 ∧ crc8 [0xAA#8, 0x02#8, 0x00#8] = 0xE5#8

/-- R85(b): the step is the printed table at `c ^ b`. -/
def Obligations.CrcStepIsThePrintedTable : Prop :=
  ∀ c b : Byte, crc8Step c b = printedCrcTable.getD (c ^^^ b).toNat 0x00#8

/-- R82 CRC_UPD. -/
def Obligations.CrcUpdFeedsOneByte : Prop :=
  (∀ b : Byte, encode (.crcUpd b) = [0x02#8, b]) ∧
  (∀ (b : Byte) (s : State), s.Live →
    exec (.crcUpd b) s = .next { s with
      crc := crc8Step s.crc b, history := s.history ++ [.resp 0x02#8 .ok []] }) ∧
  (∀ s : State, s.Live → s.crc = 0x00#8 →
    ∃ t, runAll [.crcUpd 0xAA#8, .crcUpd 0x02#8, .crcUpd 0x00#8] s = .next t ∧ t.crc = 0xE5#8)

/-- R83 CRC_CLR. -/
def Obligations.CrcClrRestartsTheGenerator : Prop :=
  encode .crcClr = [0x01#8] ∧
  (∀ s : State, s.Live →
    exec .crcClr s = .next { s with crc := 0x00#8, history := s.history ++ [.resp 0x01#8 .ok []] }) ∧
  (∀ s t u : State, exec .crcClr s = .next t → exec .crcClr t = .next u → u.crc = t.crc)

/-- R84 CRC_RD. -/
def Obligations.CrcRdReadsTheGenerator : Prop :=
  encode .crcRd = [0x03#8] ∧
  (∀ s : State, s.Live → exec .crcRd s = .next { s with history := s.history ++ [.resp 0x03#8 .ok [s.crc]] }) ∧
  (∀ s : State, s.fault = none → ∃ t, runAll [.rst, .crcRd] s = .next t ∧
    t.history = s.history ++ [.resp 0x03#8 .ok [0x00#8]]) ∧
  (∀ s : State, s.Live → ∃ t, runAll (crcBlock [0xAA#8, 0x01#8, 0x00#8]) s = .next t ∧
    t.history.getLast? = some (.resp 0x03#8 .ok [0xDA#8]))

/-- R64, R85(a): CRC_BLOCK responds with the CRC of its bytes, and leaves it in CRC. -/
def Obligations.CrcBlockComputesTheCrc : Prop :=
  ∀ (bs : List Byte) (s : State), s.Live →
    runAll (crcBlock bs) s = .next { s with
      crc := crc8 bs
      history := s.history ++ [.resp 0x01#8 .ok []] ++ List.replicate bs.length (.resp 0x02#8 .ok []) ++
        [.resp 0x03#8 .ok [crc8 bs]] }

/-- R85(c): the CRC is linear over lists of equal length. -/
def Obligations.CrcIsLinear : Prop :=
  ∀ xs ys : List Byte, xs.length = ys.length →
    crc8 (List.zipWith (fun x y => x ^^^ y) xs ys) = crc8 xs ^^^ crc8 ys

/-- R85(d): a list followed by its own CRC has CRC 0, and so has every frame the encoder builds. -/
def Obligations.CrcOfAFrameIsZero : Prop :=
  (∀ bs : List Byte, crc8 (bs ++ [crc8 bs]) = 0x00#8) ∧
  (∀ (kind : Byte) (p : List Byte), crc8 (frameOf kind p) = 0x00#8)

/-- R85(e): every nonzero error within one byte, and every burst of at most 8 bits across two neighbouring bytes (most
significant bit first), changes the CRC. -/
def Obligations.CrcDetectsShortBursts : Prop :=
  (∀ (xs ys : List Byte) (a e : Byte), e ≠ 0x00#8 → crc8 (xs ++ [a ^^^ e] ++ ys) ≠ crc8 (xs ++ [a] ++ ys)) ∧
  (∀ (xs ys : List Byte) (a b e : Byte) (sh : Nat), e ≠ 0x00#8 → sh ≤ 8 →
    crc8 (xs ++ [a ^^^ (e.setWidth 16 <<< sh).extractLsb' 8 8, b ^^^ (e.setWidth 16 <<< sh).extractLsb' 0 8] ++ ys) ≠
      crc8 (xs ++ [a, b] ++ ys))

/-! ### CODEC -/

/-- R90 ENC: the frame for a payload of at most 255 bytes, PAYLOAD_TOO_LARGE and no data for a longer one. -/
def Obligations.EncBuildsTheFrame : Prop :=
  (∀ (kind : Byte) (p : List Byte), encode (.enc kind p) =
    [0x10#8, kind, BitVec.ofNat 8 p.length, BitVec.ofNat 8 (p.length / 256)] ++ p) ∧
  (∀ (kind : Byte) (p : List Byte) (s : State), s.Live → p.length ≤ 255 →
    exec (.enc kind p) s = .next { s with
      history := s.history ++ [.resp 0x10#8 .ok
        ([0xAA#8, kind, BitVec.ofNat 8 p.length] ++ p ++ [crc8 ([0xAA#8, kind, BitVec.ofNat 8 p.length] ++ p)])] }) ∧
  (∀ (kind : Byte) (p : List Byte) (s : State), s.Live → 255 < p.length →
    exec (.enc kind p) s = .next { s with history := s.history ++ [.resp 0x10#8 .payloadTooLarge []] }) ∧
  (∀ s : State, s.Live → exec (.enc 0x02#8 []) s = .next { s with
    history := s.history ++ [.resp 0x10#8 .ok [0xAA#8, 0x02#8, 0x00#8, 0xE5#8]] })

/-- R92 CHK: the four tests in the rule's order, on every byte list. -/
def Obligations.ChkClassifiesEveryInput : Prop :=
  (∀ bs : List Byte, encode (.chk bs) =
    [0x11#8, BitVec.ofNat 8 bs.length, BitVec.ofNat 8 (bs.length / 256)] ++ bs) ∧
  (∀ (bs : List Byte) (s : State), s.Live → bs.length < 4 →
    exec (.chk bs) s = .next { s with history := s.history ++ [.resp 0x11#8 .truncated []] }) ∧
  (∀ (m k l : Byte) (rest : List Byte) (s : State), s.Live → 0 < rest.length → m ≠ 0xAA#8 →
    exec (.chk (m :: k :: l :: rest)) s = .next { s with history := s.history ++ [.resp 0x11#8 .badMarker []] }) ∧
  (∀ (k l : Byte) (rest : List Byte) (s : State), s.Live → 0 < rest.length → rest.length < l.toNat + 1 →
    exec (.chk (0xAA#8 :: k :: l :: rest)) s = .next { s with history := s.history ++ [.resp 0x11#8 .truncated []] }) ∧
  (∀ (k l c : Byte) (p more : List Byte) (s : State), s.Live → p.length = l.toNat →
    c ≠ crc8 (0xAA#8 :: k :: l :: p) →
    exec (.chk (0xAA#8 :: k :: l :: p ++ c :: more)) s = .next { s with
      history := s.history ++ [.resp 0x11#8 .checksumFailed ([0x03#8, 0x01#8, l] ++ p)] }) ∧
  (∀ (k l c : Byte) (p more : List Byte) (s : State), s.Live → p.length = l.toNat →
    c = crc8 (0xAA#8 :: k :: l :: p) →
    exec (.chk (0xAA#8 :: k :: l :: p ++ c :: more)) s = .next { s with
      history := s.history ++ [.resp 0x11#8 .ok ([k, 0x00#8, l] ++ p)] })

/-- R91: CHK of an encoded frame succeeds and returns its kind and payload, whatever bytes follow (R93). -/
def Obligations.CheckOfEncodedFrameSucceeds : Prop :=
  ∀ (kind : Byte) (p more : List Byte) (s : State), s.Live → p.length ≤ 255 →
    ∃ f, encodeFrame kind p = .ok f ∧
      exec (.chk (f ++ more)) s = .next { s with
        history := s.history ++ [.resp 0x11#8 .ok ([kind, 0x00#8, BitVec.ofNat 8 p.length] ++ p)] }

/-- R95: the advisory bit, the zero CRC and CHK's OK agree on every frame whose declared length fits exactly. -/
def Obligations.AdvisoryBitAgreesWithCheck : Prop :=
  ∀ (kind c : Byte) (p : List Byte), p.length ≤ 255 →
    (crcOk (frameWith kind p c) = true ↔ c = crc8 (frameBody kind p)) ∧
    (crcOk (frameWith kind p c) = true ↔ crc8 (frameWith kind p c) = 0x00#8) ∧
    (crcOk (frameWith kind p c) = true ↔ (checkFrame (frameWith kind p c)).1 = .ok)

/-- R93: what CHK reports for an encoded frame with the single bit `i` of byte `j` flipped. -/
def Obligations.SingleBitErrorOutcomes : Prop :=
  ∀ (kind : Byte) (p g : List Byte) (i j : Nat) (s : State), s.Live → p.length ≤ 255 → i < 8 → j < p.length + 4 →
    g = (frameOf kind p).set j ((frameOf kind p).getD j 0x00#8 ^^^ (1#8 <<< i)) →
    (j = 0 → exec (.chk g) s = .next { s with history := s.history ++ [.resp 0x11#8 .badMarker []] }) ∧
    (j = 1 ∨ 3 ≤ j → exec (.chk g) s = .next { s with
      history := s.history ++ [.resp 0x11#8 .checksumFailed
        ([0x03#8, 0x01#8, BitVec.ofNat 8 p.length] ++ slice 3 (3 + p.length) g)] }) ∧
    (j = 2 → p.length < (g.getD 2 0x00#8).toNat →
      exec (.chk g) s = .next { s with history := s.history ++ [.resp 0x11#8 .truncated []] }) ∧
    (j = 2 → (g.getD 2 0x00#8).toNat < p.length →
      (checkFrame g).1 =
        if crc8 (g.take (3 + (g.getD 2 0x00#8).toNat)) = g.getD (3 + (g.getD 2 0x00#8).toNat) 0x00#8 then .ok
        else .checksumFailed)

/-! ### CTL -/

/-- R100: one record with a count of at most the length offered, SHORT_WRITE exactly when the count is less; a frame is
sent as the bytes the encoder gives. -/
def Obligations.TransmitOffersOnceAndReportsShortWrites : Prop :=
  (∀ (s : State) (bs : List Byte), ∃ k, k ≤ bs.length ∧ (s.txWrite bs).2 = s.afterAccept.emit (.txWrite bs k) ∧
    (s.txWrite bs).1 = if k < bs.length then .shortWrite else .ok) ∧
  (∀ s : State, (s.txWrite []).1 = .ok ∧ (s.txWrite []).2 = s.afterAccept.emit (.txWrite [] 0)) ∧
  (∀ (s : State) (kind : Byte) (p f : List Byte), encodeFrame kind p = .ok f → s.sendFrame kind p = s.txWrite f) ∧
  (∀ (s : State) (kind : Byte) (p : List Byte), p.length ≤ 5 → s.sendFrame kind p = s.txWrite (frameOf kind p))

/-- R100, R22: the environment's draws admit every count and every sample, and change no register (log entry 2). -/
def Obligations.DrawsAdmitEveryChoice : Prop :=
  (∀ (s : State) (n : Nat), s.drawAccept n ≤ n) ∧
  (∀ (s : State) (n k : Nat) (ks : List Nat), k ≤ n → { s with acceptIn := k :: ks }.drawAccept n = k) ∧
  (∀ (s : State) (b : Bool) (bs : List Bool), { s with openIn := b :: bs }.sampleOpen = b) ∧
  (∀ (s : State), s.afterAccept = { s with acceptIn := s.acceptIn.tail, drawn := s.afterAccept.drawn }) ∧
  (∀ (s : State), s.afterOpen = { s with openIn := s.openIn.tail, drawn := s.afterOpen.drawn })

/-- R101 START. Where the sample and the accepted count come from is the model's form of the environment (log entry 2). -/
def Obligations.StartRegistersTheConsumer : Prop :=
  (∀ tag : Byte, encode (.start tag) = [0x20#8, tag]) ∧
  (∀ (tag : Byte) (s : State), s.Live → s.sampleOpen = false →
    exec (.start tag) s = .next { s.afterOpen with
      history := s.history ++ [.resp 0x20#8 .transportNotOpen []] }) ∧
  (∀ (tag : Byte) (s : State), s.Live → s.sampleOpen = true →
    ∃ k, k = s.afterOpen.drawAccept 4 ∧ k ≤ 4 ∧
      exec (.start tag) s = .next { s.afterOpen.afterAccept with
        mode := .streaming, tag := tag
        history := s.history ++ [.txWrite [0xAA#8, 0x01#8, 0x00#8, 0xDA#8] k,
          .resp 0x20#8 (if k < 4 then .shortWrite else .ok) []] }) ∧
  (∀ (tag : Byte) (s : State) (os : List Bool) (ks : List Nat), s.Live →
    s.openIn = true :: os → s.acceptIn = 4 :: ks →
    exec (.start tag) s = .next { s with
      mode := .streaming, tag := tag, openIn := os, acceptIn := ks
      history := s.history ++ [.txWrite [0xAA#8, 0x01#8, 0x00#8, 0xDA#8] 4, .resp 0x20#8 .ok []] })

/-- R102 STOP. Where the accepted count comes from is the model's form of the environment (log entry 2). -/
def Obligations.StopClearsTheConsumer : Prop :=
  encode .stop = [0x21#8] ∧
  (∀ s : State, s.Live →
    ∃ k, k = s.drawAccept 4 ∧ k ≤ 4 ∧
      exec .stop s = .next { s.afterAccept with
        mode := .stopped, tag := 0x00#8
        history := s.history ++ [.txWrite [0xAA#8, 0x02#8, 0x00#8, 0xE5#8] k,
          .resp 0x21#8 (if k < 4 then .shortWrite else .ok) []] })

/-- R103 RECONF: the consumer is cleared first; then the mapped settings are sent, or nothing. Where the accepted count
comes from is the model's form of the environment (log entry 2). -/
def Obligations.ReconfClearsThenSendsMappedSettings : Prop :=
  (∀ (baud : Word) (d st p f : Byte), encode (.reconf baud d st p f) =
    [0x22#8, baud.extractLsb' 0 8, baud.extractLsb' 8 8, baud.extractLsb' 16 8, baud.extractLsb' 24 8, d, st, p, f]) ∧
  (∀ (baud : Word) (d st p f : Byte) (s : State), s.Live → mapSettings baud d st p f = .error .unmappedSetting →
    exec (.reconf baud d st p f) s = .next { s with
      mode := .idle, tag := 0x00#8, history := s.history ++ [.resp 0x22#8 .unmappedSetting []] }) ∧
  (∀ (baud : Word) (d st p f bc dc sc pc fc : Byte) (s : State), s.Live →
    mapSettings baud d st p f = .ok [bc, dc, sc, pc, fc] →
    ∃ k, k = s.drawAccept 9 ∧ k ≤ 9 ∧
      exec (.reconf baud d st p f) s = .next { s.afterAccept with
        mode := .idle, tag := 0x00#8
        history := s.history ++
          [.txWrite [0xAA#8, 0x03#8, 0x05#8, bc, dc, sc, pc, fc,
              crc8 [0xAA#8, 0x03#8, 0x05#8, bc, dc, sc, pc, fc]] k,
            .resp 0x22#8 (if k < 9 then .shortWrite else .ok) []] }) ∧
  (∀ (s : State) (ks : List Nat), s.Live → s.acceptIn = 9 :: ks →
    exec (.reconf 9600#32 8#8 2#8 0#8 0#8) s = .next { s with
      mode := .idle, tag := 0x00#8, acceptIn := ks
      history := s.history ++
        [.txWrite [0xAA#8, 0x03#8, 0x05#8, 0x01#8, 0x02#8, 0x01#8, 0x01#8, 0x01#8, 0xB3#8] 9, .resp 0x22#8 .ok []] })

/-- R104: exactly the tabled settings are mapped, each to its code; anything else is UNMAPPED_SETTING. -/
def Obligations.SettingsMapByTheTables : Prop :=
  Config.baudCode 9600 = some 1#8 ∧ Config.baudCode 19200 = some 2#8 ∧
  (∀ (baud : Word) (d st p f : Byte) (codes : List Byte), mapSettings baud d st p f = .ok codes ↔
    ∃ bc dc sc pc fc, codes = [bc, dc, sc, pc, fc] ∧ Config.baudCode baud.toNat = some bc ∧
      (d, dc) ∈ [(7#8, 1#8), (8#8, 2#8)] ∧ (st, sc) ∈ [(2#8, 1#8), (3#8, 2#8), (4#8, 3#8)] ∧
      (p, pc) ∈ [(0#8, 1#8), (1#8, 2#8), (2#8, 3#8)] ∧ (f, fc) ∈ [(0#8, 1#8), (1#8, 2#8)]) ∧
  (∀ (baud : Word) (d st p f : Byte), (∀ codes, mapSettings baud d st p f ≠ .ok codes) →
    mapSettings baud d st p f = .error .unmappedSetting)

/-- R105 SEND. Where the accepted count comes from is the model's form of the environment (log entry 2). -/
def Obligations.SendOffersTheGivenBytes : Prop :=
  (∀ bs : List Byte, encode (.send bs) =
    [0x12#8, BitVec.ofNat 8 bs.length, BitVec.ofNat 8 (bs.length / 256)] ++ bs) ∧
  (∀ (bs : List Byte) (s : State), s.Live →
    ∃ k, k = s.drawAccept bs.length ∧ k ≤ bs.length ∧
      exec (.send bs) s = .next { s.afterAccept with
        history := s.history ++ [.txWrite bs k, .resp 0x12#8 (if k < bs.length then .shortWrite else .ok) []] }) ∧
  (∀ s : State, s.Live → exec (.send []) s = .next { s.afterAccept with
    history := s.history ++ [.txWrite [] 0, .resp 0x12#8 .ok []] }) ∧
  (∀ (s : State) (ks : List Nat), s.Live → s.acceptIn = 2 :: ks →
    exec (.send [0xAA#8, 0x02#8, 0x00#8, 0xE5#8]) s = .next { s with
      acceptIn := ks
      history := s.history ++ [.txWrite [0xAA#8, 0x02#8, 0x00#8, 0xE5#8] 2, .resp 0x12#8 .shortWrite []] })

/-- R106 TICK. -/
def Obligations.TickSnapshotsTheCounter : Prop :=
  encode .tick = [0x31#8] ∧
  (∀ s : State, s.Live → exec .tick s = .next { s with freq := s.fcnt, fcnt := 0#32 }) ∧
  (∀ s : State, s.Live → runAll [.tick, .tick] s = .next { s with freq := 0#32, fcnt := 0#32 })

/-- R107 RD_MODE. -/
def Obligations.RdModeReadsModeAndTag : Prop :=
  encode .rdMode = [0x40#8] ∧
  (∀ s : State, s.Live → exec .rdMode s = .next { s with
    history := s.history ++ [.resp 0x40#8 .ok [s.mode.code.setWidth 8, s.tag]] }) ∧
  (∀ s : State, s.Live → s.Inv → s.mode ≠ .streaming → exec .rdMode s = .next { s with
    history := s.history ++ [.resp 0x40#8 .ok [s.mode.code.setWidth 8, 0x00#8]] }) ∧
  (∀ s : State, s.fault = none → ∃ t, runAll [.rst, .rdMode] s = .next t ∧
    t.history = s.history ++ [.resp 0x40#8 .ok [0x00#8, 0x00#8]])

/-- R108, R109: RD_FCNT and RD_FREQ respond with their register, least significant byte first; FCNT wraps. -/
def Obligations.CounterReadsAreLittleEndian : Prop :=
  encode .rdFcnt = [0x41#8] ∧ encode .rdFreq = [0x42#8] ∧
  (∀ s : State, s.Live → exec .rdFcnt s = .next { s with
    history := s.history ++ [.resp 0x41#8 .ok [s.fcnt.extractLsb' 0 8, s.fcnt.extractLsb' 8 8,
      s.fcnt.extractLsb' 16 8, s.fcnt.extractLsb' 24 8]] }) ∧
  (∀ s : State, s.Live → exec .rdFreq s = .next { s with
    history := s.history ++ [.resp 0x42#8 .ok [s.freq.extractLsb' 0 8, s.freq.extractLsb' 8 8,
      s.freq.extractLsb' 16 8, s.freq.extractLsb' 24 8]] }) ∧
  (∀ s : State, s.Live → s.fcnt = 258#32 → exec .rdFcnt s = .next { s with
    history := s.history ++ [.resp 0x41#8 .ok [0x02#8, 0x01#8, 0x00#8, 0x00#8]] }) ∧
  (∀ s : State, s.Live → s.fcnt = 1#32 → ∃ t, runAll [.tick, .rdFreq] s = .next t ∧
    t.history = s.history ++ [.resp 0x42#8 .ok [0x01#8, 0x00#8, 0x00#8, 0x00#8]]) ∧
  (∀ s : State, s.Live → s.mode = .streaming → s.rxbuf = [0xAA#8, 0x02#8, 0x00#8] → s.fcnt = 0xFFFFFFFF#32 →
    ∃ t, runAll [.rxByte 0xE5#8, .rdFcnt] s = .next t ∧
      t.history.getLast? = some (.resp 0x41#8 .ok [0x00#8, 0x00#8, 0x00#8, 0x00#8]))

/-- R110 RD_RXLEN. -/
def Obligations.RdRxlenReadsTheLength : Prop :=
  encode .rdRxlen = [0x43#8] ∧
  (∀ s : State, s.Live → exec .rdRxlen s = .next { s with
    history := s.history ++ [.resp 0x43#8 .ok [BitVec.ofNat 8 s.rxlen, BitVec.ofNat 8 (s.rxlen / 256)]] }) ∧
  (∀ s : State, s.Inv → s.rxlen ≤ 258) ∧
  (∀ s : State, s.Live → s.mode = .streaming → s.rxbuf = [] →
    ∃ t, runAll [.rxByte 0xAA#8, .rdRxlen] s = .next t ∧
      t.history = s.history ++ [.resp 0x43#8 .ok [0x01#8, 0x00#8]])

/-- R59: every opcode outside the table of R56, and no other, is a 1-byte event that responds ILLEGAL_OP. -/
def Obligations.ReservedOpcodesRespondIllegal : Prop :=
  (∀ (op : Byte) (rest : List Byte),
    decode .events (op :: rest) = .ok (.reserved op) rest ↔
      op ∉ [0x01#8, 0x02#8, 0x03#8, 0x10#8, 0x11#8, 0x12#8, 0x20#8, 0x21#8, 0x22#8, 0x30#8, 0x31#8, 0x40#8, 0x41#8,
        0x42#8, 0x43#8, 0xFF#8]) ∧
  (∀ op : Byte, isReservedOp op = true ↔
      op ∉ [0x01#8, 0x02#8, 0x03#8, 0x10#8, 0x11#8, 0x12#8, 0x20#8, 0x21#8, 0x22#8, 0x30#8, 0x31#8, 0x40#8, 0x41#8,
        0x42#8, 0x43#8, 0xFF#8]) ∧
  (∀ (op : Byte) (s : State), s.Live →
    exec (.reserved op) s = .next { s with history := s.history ++ [.resp op .illegalOp []] })

/-- R64: SEND_CMD is ENC and then, only if ENC responds OK, SEND of the data it responds with; a payload too long for a frame
is rejected by ENC and nothing is sent (the accepted count: log entry 2). -/
def Obligations.SendCmdEncodesThenSends : Prop :=
  (∀ (kind : Byte) (p : List Byte) (s : State), s.Live →
    ∃ st data, exec (.enc kind p) s = .next { s with history := s.history ++ [.resp 0x10#8 st data] } ∧
      sendCmd kind p = .enc kind p :: (if st = .ok then [.send data] else [])) ∧
  (∀ (kind : Byte) (p : List Byte) (s : State), s.Live → p.length ≤ 255 →
    ∃ k, k = s.drawAccept (p.length + 4) ∧
      runAll (sendCmd kind p) s = .next { s.afterAccept with
        history := s.history ++ [.resp 0x10#8 .ok (frameOf kind p), .txWrite (frameOf kind p) k,
          .resp 0x12#8 (if k < p.length + 4 then .shortWrite else .ok) []] }) ∧
  (∀ (kind : Byte) (p : List Byte) (s : State), s.Live → 255 < p.length →
    runAll (sendCmd kind p) s = .next { s with history := s.history ++ [.resp 0x10#8 .payloadTooLarge []] })

/-! ### Which instructions write what -/

/-- R16, R17, R111: only START, STOP, RECONF and RST write MODE or TAG. -/
def Obligations.OnlyControlEventsWriteModeAndTag : Prop :=
  ∀ (i : Instr) (s t : State), exec i s = .next t →
    (∀ tag, i ≠ .start tag) → i ≠ .stop → (∀ b d st p f, i ≠ .reconf b d st p f) → i ≠ .rst →
    t.mode = s.mode ∧ t.tag = s.tag

/-- R14's table: the writers of CRC, FCNT, FREQ and RXBUF, the response frames being received bytes; START, STOP and RECONF
leave RXBUF and FCNT as they are (R134, R18); only RST writes RESET_SEEN. -/
def Obligations.RegistersHaveOnlyTheirWriters : Prop :=
  ∀ (i : Instr) (s t : State), exec i s = .next t → i ≠ .rst →
    t.resetSeen = s.resetSeen ∧
    ((∀ b, i ≠ .crcUpd b) → i ≠ .crcClr → t.crc = s.crc) ∧
    (i ≠ .tick → t.freq = s.freq) ∧
    (i.channel ≠ .wireIn → (∀ b, i ≠ .rxByte b) → t.rxbuf = s.rxbuf ∧ (i ≠ .tick → t.fcnt = s.fcnt))

/-- R23: the output history only grows. -/
def Obligations.HistoryOnlyGrows : Prop :=
  ∀ (i : Instr) (s t : State), exec i s = .next t → ∃ recs, t.history = s.history ++ recs

/-- R60: a command-port event ends with exactly one Resp, carrying its opcode; no other instruction emits one. -/
def Obligations.CommandsRespondExactlyOnce : Prop :=
  (∀ (i : Instr) (s : State), s.Live → isCommand i = true →
    ∃ t recs st data, exec i s = .next t ∧
      t.history = s.history ++ recs ++ [.resp ((encode i).headD 0x00#8) st data] ∧
      ∀ r ∈ recs, r.isResp = false) ∧
  (∀ (i : Instr) (s t : State), isCommand i = false → exec i s = .next t →
    ∀ r ∈ t.history.drop s.history.length, r.isResp = false)

/-- R15: no instruction but the three CRC events and RST depends on CRC or writes it. -/
def Obligations.OtherUnitsIgnoreTheCrcRegister : Prop :=
  ∀ (i : Instr) (s t : State) (c : Byte), i ≠ .crcClr → (∀ b, i ≠ .crcUpd b) → i ≠ .crcRd → i ≠ .rst →
    exec i s = .next t → exec i { s with crc := c } = .next { t with crc := c }

/-- R23: no rule reads the history. -/
def Obligations.NoInstructionReadsTheHistory : Prop :=
  ∀ (i : Instr) (s t : State) (h : List Record), exec i s = .next t →
    exec i { s with history := h } = .next { t with history := h ++ t.history.drop s.history.length }

/-! ### RXS -/

/-- R31, R32, R33: the receive-buffer primitives. -/
def Obligations.BufferPrimitivesFollowTheirRules : Prop :=
  (∀ (s : State) (b : Byte), s.rxlen = 259 → s.rxAppend b = .error .rxOverflow) ∧
  (∀ (s : State) (b : Byte), s.rxlen ≠ 259 → s.rxAppend b = .ok { s with rxbuf := s.rxbuf ++ [b] }) ∧
  (∀ (s : State) (n : Nat), s.rxlen < n → s.rxPeek n = .error .insufficientData) ∧
  (∀ (s : State) (n : Nat), n ≤ s.rxlen → s.rxPeek n = .ok (s.rxbuf.take n)) ∧
  (∀ (s : State) (n : Nat), s.rxlen < n → s.rxConsume n = .error .insufficientData) ∧
  (∀ (s : State) (n : Nat), n ≤ s.rxlen →
    s.rxConsume n = .ok (s.rxbuf.take n, { s with rxbuf := s.rxbuf.drop n }))

/-- R35: the FIFO law. -/
def Obligations.BufferIsFirstInFirstOut : Prop :=
  ∀ (ops : List FifoOp) (s t : State) (vs : List Byte), runFifo ops s = .ok (vs, t) →
    vs ++ t.rxbuf = s.rxbuf ++ appendedBytes ops

/-- R130 RX_BYTE, in every state: discarded outside Streaming, an overflow recorded at a full buffer, and otherwise the
append and the extraction loop. -/
def Obligations.RxByteRunsTheExtractionLoop : Prop :=
  (∀ b : Byte, encode (.rxByte b) = [0x30#8, b]) ∧
  (∀ (b : Byte) (s : State), s.Live → s.mode ≠ .streaming → exec (.rxByte b) s = .next s) ∧
  (∀ (b : Byte) (s : State), s.Live → s.mode = .streaming → s.rxlen = 259 →
    exec (.rxByte b) s = .next { s with fault := some .rxOverflow }) ∧
  (∀ (b : Byte) (s : State) (frames : List (List Byte)) (left : List Byte), s.Live → s.mode = .streaming →
    s.rxlen ≠ 259 → extractAll (s.rxlen + 1) (s.rxbuf ++ [b]) = (frames, left) →
    exec (.rxByte b) s = .next { s with
      rxbuf := left, fcnt := s.fcnt + BitVec.ofNat 32 frames.length
      history := s.history ++ frameRecords s.tag frames })

/-- R133: from the framing invariant one received byte makes at most one drop or one frame, by four cases that exclude each
other and leave none out. -/
def Obligations.OneActionPerReceivedByte : Prop :=
  ∀ (b : Byte) (s : State) (buf : List Byte), s.Live → s.mode = .streaming → s.Inv → buf = s.rxbuf ++ [b] →
    (buf.length < 3 → exec (.rxByte b) s = .next { s with rxbuf := buf }) ∧
    (3 ≤ buf.length → buf.getD 0 0x00#8 ≠ 0xAA#8 →
      buf.length = 3 ∧ exec (.rxByte b) s = .next { s with rxbuf := buf.drop 1 }) ∧
    (3 ≤ buf.length → buf.getD 0 0x00#8 = 0xAA#8 → buf.length < 4 + (buf.getD 2 0x00#8).toNat →
      exec (.rxByte b) s = .next { s with rxbuf := buf }) ∧
    (3 ≤ buf.length → buf.getD 0 0x00#8 = 0xAA#8 → 4 + (buf.getD 2 0x00#8).toNat ≤ buf.length →
      buf.length = 4 + (buf.getD 2 0x00#8).toNat ∧
      exec (.rxByte b) s = .next { s with
        rxbuf := [], fcnt := s.fcnt + 1#32, history := s.history ++ [.frameOut s.tag buf (crcOk buf)] })

/-- R24 at reset. -/
def Obligations.ResetMeetsTheInvariants : Prop :=
  State.reset.Inv ∧ Memory.wf State.reset.rxbuf = true

/-- R24: every step keeps the invariants, from every state that meets them. -/
def Obligations.EveryStepKeepsTheInvariants : Prop :=
  ∀ s t : State, s.Inv → step s = .next t → t.Inv ∧ Memory.wf t.rxbuf = true

/-- R132: delivering a chunk byte by byte gives the frames, the buffer and the count of the source's loop over the whole
chunk. -/
def Obligations.ChunkedDeliveryMatchesTheWholeChunkLoop : Prop :=
  ∀ (bs : List Byte) (s : State), s.Live → s.mode = .streaming → s.Inv →
    runAll (rxChunk bs) s = .next { s with
      rxbuf := (extractAll (s.rxbuf ++ bs).length (s.rxbuf ++ bs)).2
      fcnt := s.fcnt + BitVec.ofNat 32 (extractAll (s.rxbuf ++ bs).length (s.rxbuf ++ bs)).1.length
      history := s.history ++ frameRecords s.tag (extractAll (s.rxbuf ++ bs).length (s.rxbuf ++ bs)).1 }

/-- R136: after garbage without a marker byte, a frame is dispatched once and unchanged. -/
def Obligations.GarbageBeforeAFrameIsDropped : Prop :=
  ∀ (garbage p : List Byte) (kind c : Byte) (s : State), s.Live → s.mode = .streaming → s.rxbuf = [] →
    0xAA#8 ∉ garbage → p.length ≤ 255 →
    runAll (rxChunk (garbage ++ frameWith kind p c)) s = .next { s with
      rxbuf := [], fcnt := s.fcnt + 1#32
      history := s.history ++ [.frameOut s.tag (frameWith kind p c) (crcOk (frameWith kind p c))] }

/-- R137: the source's scenario, byte by byte. -/
def Obligations.SourceScenarioByteByByte : Prop :=
  ∀ s : State, s.Live → s.mode = .streaming →
    (s.rxbuf = [] → exec (.rxByte 0xFF#8) s = .next { s with rxbuf := [0xFF#8] }) ∧
    (s.rxbuf = [0xFF#8] → exec (.rxByte 0xFF#8) s = .next { s with rxbuf := [0xFF#8, 0xFF#8] }) ∧
    (s.rxbuf = [0xFF#8, 0xFF#8] → exec (.rxByte 0xAA#8) s = .next { s with rxbuf := [0xFF#8, 0xAA#8] }) ∧
    (s.rxbuf = [0xFF#8, 0xAA#8] → exec (.rxByte 0x02#8) s = .next { s with rxbuf := [0xAA#8, 0x02#8] }) ∧
    (s.rxbuf = [0xAA#8, 0x02#8] → exec (.rxByte 0x00#8) s = .next { s with rxbuf := [0xAA#8, 0x02#8, 0x00#8] }) ∧
    (s.rxbuf = [0xAA#8, 0x02#8, 0x00#8] → exec (.rxByte 0xE5#8) s = .next { s with
      rxbuf := [], fcnt := s.fcnt + 1#32
      history := s.history ++ [.frameOut s.tag [0xAA#8, 0x02#8, 0x00#8, 0xE5#8] true] })

/-- R134: a stale header survives STOP and START, takes the next bytes as the rest of its own frame, and that frame goes to
the new consumer. -/
def Obligations.StaleHeaderTakesTheNextBytes : Prop :=
  ∀ (kind l tag : Byte) (q r : List Byte) (s t : State), s.Live → s.mode = .streaming →
    s.rxbuf = 0xAA#8 :: kind :: l :: q → q.length ≤ l.toNat → (q ++ r).length = l.toNat + 1 →
    runAll [.stop, .start tag] s = .next t → t.mode = .streaming →
    t.rxbuf = s.rxbuf ∧
    runAll (rxChunk r) t = .next { t with
      rxbuf := [], fcnt := s.fcnt + 1#32
      history := t.history ++
        [.frameOut tag (0xAA#8 :: kind :: l :: q ++ r) (crcOk (0xAA#8 :: kind :: l :: q ++ r))] }

/-- R21, R51, R131, R156: in every state, a record dispatched by an instruction is a frame of exactly its declared length, it
carries the consumer and the advisory bit of that moment, and it is dispatched in Streaming only. -/
def Obligations.DispatchedFramesAreLengthDelimited : Prop :=
  ∀ (i : Instr) (s t : State) (tag : Byte) (f : List Byte) (ok : Bool), exec i s = .next t →
    .frameOut tag f ok ∈ t.history.drop s.history.length →
    s.mode = .streaming ∧ tag = s.tag ∧ f.getD 0 0x00#8 = 0xAA#8 ∧ f.length = 4 + (f.getD 2 0x00#8).toNat ∧
      ok = crcOk f

/-! ### Wire frames -/

/-- R52: the three command frames are the tabled bytes, and each is offered to the transport as R100's `send_frame` offers it.
That a frame is an instruction of its own is the model's choice (log entry 4). -/
def Obligations.CommandFramesAreOfferedToTheTransport : Prop :=
  encode .frameGetData = [0xAA#8, 0x01#8, 0x00#8, 0xDA#8] ∧ encode .frameStop = [0xAA#8, 0x02#8, 0x00#8, 0xE5#8] ∧
  encode (.frameReconfigureUart 0x01#8 0x02#8 0x01#8 0x01#8 0x01#8) =
    [0xAA#8, 0x03#8, 0x05#8, 0x01#8, 0x02#8, 0x01#8, 0x01#8, 0x01#8, 0xB3#8] ∧
  (∀ s : State, s.Live → exec .frameGetData s = .next { s.afterAccept with
    history := s.history ++ [.txWrite [0xAA#8, 0x01#8, 0x00#8, 0xDA#8] (s.drawAccept 4)] }) ∧
  (∀ s : State, s.Live → exec .frameStop s = .next { s.afterAccept with
    history := s.history ++ [.txWrite [0xAA#8, 0x02#8, 0x00#8, 0xE5#8] (s.drawAccept 4)] }) ∧
  (∀ (c0 c1 c2 c3 c4 : Byte) (s : State), s.Live →
    exec (.frameReconfigureUart c0 c1 c2 c3 c4) s = .next { s.afterAccept with
      history := s.history ++ [.txWrite [0xAA#8, 0x03#8, 0x05#8, c0, c1, c2, c3, c4,
        crc8 [0xAA#8, 0x03#8, 0x05#8, c0, c1, c2, c3, c4]] (s.drawAccept 9)] })

/-- R53, R64: a response frame is the reception of its bytes; from an empty buffer in Streaming it is dispatched whole, and
outside Streaming it is discarded. That a frame is one instruction is the model's choice (log entry 5). -/
def Obligations.ResponseFramesAreReceived : Prop :=
  ∀ (i : Instr) (kind : Byte) (p : List Byte) (c : Byte),
    (kind, i) ∈ [(0x01#8, Instr.respAccepted p c), (0x02#8, .respRejected p c), (0x03#8, .respChecksumFailed p c),
      (0x04#8, .respMalformed p c)] →
    encode i = 0xAA#8 :: kind :: BitVec.ofNat 8 p.length :: p ++ [c] ∧
    (∀ s : State, exec i s = runAll (rxChunk (encode i)) s) ∧
    (∀ s : State, s.Live → s.mode ≠ .streaming → exec i s = .next s) ∧
    (∀ s : State, s.Live → s.mode = .streaming → s.rxbuf = [] → p.length ≤ 255 →
      exec i s = .next { s with
        fcnt := s.fcnt + 1#32, history := s.history ++ [.frameOut s.tag (encode i) (crcOk (encode i))] })

/-! ### Encoding and the step -/

/-- Every well-formed instruction decodes back from its encoding on its channel, whatever follows. -/
def Obligations.DecodeOfEncodeIsTheInstruction : Prop :=
  ∀ (i : Instr) (rest : List Byte), WellFormed i = true → decode i.channel (encode i ++ rest) = .ok i rest

/-- Every decoded event or command frame is well-formed and is the encoding it was read from; on the incoming wire the bytes
are a response frame or one received byte. -/
def Obligations.EncodeOfDecodeIsTheBytes : Prop :=
  (∀ (ch : Channel) (bs rest : List Byte) (i : Instr), ch ≠ .wireIn → decode ch bs = .ok i rest →
    WellFormed i = true ∧ i.channel = ch ∧ encode i ++ rest = bs) ∧
  (∀ (bs rest : List Byte) (i : Instr), decode .wireIn bs = .ok i rest →
    (WellFormed i = true ∧ i.channel = .wireIn ∧ encode i ++ rest = bs) ∨ ∃ b, i = .rxByte b ∧ bs = b :: rest)

/-- R58: a trace that ends inside an event is refused, by the decoder and by the step. -/
def Obligations.TruncatedTracesAreRefused : Prop :=
  ∀ (i : Instr) (n : Nat) (s : State), WellFormed i = true → i.channel = .events → 0 < n → n < (encode i).length →
    s.channel = .events → s.trace = (encode i).take n →
    decode .events s.trace = .reject .traceTruncated ∧ step s = .refused .traceTruncated

/-- Words written out from the tables of R56, R57 and R52 decode to their instructions. -/
def Obligations.TabledWordsDecode : Prop :=
  decode .events [0x02#8, 0x31#8] = .ok (.crcUpd 0x31#8) [] ∧
  decode .events [0x10#8, 0x05#8, 0x02#8, 0x00#8, 0x07#8, 0x09#8, 0x41#8] = .ok (.enc 0x05#8 [0x07#8, 0x09#8]) [0x41#8] ∧
  decode .events [0x20#8, 0x07#8] = .ok (.start 0x07#8) [] ∧
  decode .events [0x22#8, 0x80#8, 0x25#8, 0x00#8, 0x00#8, 0x08#8, 0x02#8, 0x00#8, 0x01#8] =
    .ok (.reconf 9600#32 8#8 2#8 0#8 1#8) [] ∧
  decode .events [0x30#8, 0xAA#8] = .ok (.rxByte 0xAA#8) [] ∧
  decode .events [0xFF#8] = .ok .rst [] ∧
  decode .wireOut [0xAA#8, 0x02#8, 0x00#8, 0xE5#8] = .ok .frameStop [] ∧
  decode .wireIn [0xAA#8, 0x02#8, 0x00#8, 0xE5#8] = .ok (.respRejected [] 0xE5#8) []

/-- A step runs the instruction the pending bytes decode to, on the state without those bytes. -/
def Obligations.StepRunsTheDecodedInstruction : Prop :=
  (∀ (s : State) (i : Instr) (rest : List Byte), decode s.channel s.trace = .ok i rest →
    step s = exec i { s with trace := rest }) ∧
  (∀ (s : State) (i : Instr) (rest : List Byte), WellFormed i = true → s.channel = i.channel →
    s.trace = encode i ++ rest → step s = exec i { s with trace := rest })

/-- With nothing pending a step changes nothing (R164; the idle step is the model's choice, log entry 1), and bytes on the
outgoing wire that begin with no command frame are refused (log entry 4). -/
def Obligations.StepWithoutAnInstruction : Prop :=
  (∀ s : State, s.trace = [] → step s = .next s) ∧
  (∀ s : State, decode s.channel s.trace = .reject .notCommandFrame → step s = .refused .notCommandFrame) ∧
  (∀ s : State, step s = .refused .notCommandFrame → s.channel = .wireOut ∧ s.trace ≠ [])
end

