-- ==== Sys2Proof/Laws/State.lean ====
section
/-! SUPPORT. What each field is after each shared update, so that no proof unfolds a record update. -/

namespace Sys2Proof.Machine

/-! ### recordFault -/

@[simp] theorem State.recordFault_crc (s : State) (r : Fault) : (s.recordFault r).crc = s.crc := rfl
@[simp] theorem State.recordFault_mode (s : State) (r : Fault) : (s.recordFault r).mode = s.mode := rfl
@[simp] theorem State.recordFault_tag (s : State) (r : Fault) : (s.recordFault r).tag = s.tag := rfl
@[simp] theorem State.recordFault_fcnt (s : State) (r : Fault) : (s.recordFault r).fcnt = s.fcnt := rfl
@[simp] theorem State.recordFault_freq (s : State) (r : Fault) : (s.recordFault r).freq = s.freq := rfl
@[simp] theorem State.recordFault_rxbuf (s : State) (r : Fault) : (s.recordFault r).rxbuf = s.rxbuf := rfl
@[simp] theorem State.recordFault_resetSeen (s : State) (r : Fault) : (s.recordFault r).resetSeen = s.resetSeen := rfl
@[simp] theorem State.recordFault_fault (s : State) (r : Fault) : (s.recordFault r).fault = some r := rfl
@[simp] theorem State.recordFault_history (s : State) (r : Fault) : (s.recordFault r).history = s.history := rfl
@[simp] theorem State.recordFault_channel (s : State) (r : Fault) : (s.recordFault r).channel = s.channel := rfl
@[simp] theorem State.recordFault_trace (s : State) (r : Fault) : (s.recordFault r).trace = s.trace := rfl
@[simp] theorem State.recordFault_openIn (s : State) (r : Fault) : (s.recordFault r).openIn = s.openIn := rfl
@[simp] theorem State.recordFault_acceptIn (s : State) (r : Fault) : (s.recordFault r).acceptIn = s.acceptIn := rfl
@[simp] theorem State.recordFault_drawn (s : State) (r : Fault) : (s.recordFault r).drawn = s.drawn := rfl

/-! ### emit -/

@[simp] theorem State.emit_crc (s : State) (r : Record) : (s.emit r).crc = s.crc := rfl
@[simp] theorem State.emit_mode (s : State) (r : Record) : (s.emit r).mode = s.mode := rfl
@[simp] theorem State.emit_tag (s : State) (r : Record) : (s.emit r).tag = s.tag := rfl
@[simp] theorem State.emit_fcnt (s : State) (r : Record) : (s.emit r).fcnt = s.fcnt := rfl
@[simp] theorem State.emit_freq (s : State) (r : Record) : (s.emit r).freq = s.freq := rfl
@[simp] theorem State.emit_rxbuf (s : State) (r : Record) : (s.emit r).rxbuf = s.rxbuf := rfl
@[simp] theorem State.emit_resetSeen (s : State) (r : Record) : (s.emit r).resetSeen = s.resetSeen := rfl
@[simp] theorem State.emit_fault (s : State) (r : Record) : (s.emit r).fault = s.fault := rfl
@[simp] theorem State.emit_history (s : State) (r : Record) : (s.emit r).history = s.history ++ [r] := rfl
@[simp] theorem State.emit_channel (s : State) (r : Record) : (s.emit r).channel = s.channel := rfl
@[simp] theorem State.emit_trace (s : State) (r : Record) : (s.emit r).trace = s.trace := rfl
@[simp] theorem State.emit_openIn (s : State) (r : Record) : (s.emit r).openIn = s.openIn := rfl
@[simp] theorem State.emit_acceptIn (s : State) (r : Record) : (s.emit r).acceptIn = s.acceptIn := rfl
@[simp] theorem State.emit_drawn (s : State) (r : Record) : (s.emit r).drawn = s.drawn := rfl

/-! ### respond -/

@[simp] theorem State.respond_crc (s : State) (op : Byte) (st : Status) (data : List Byte) : (s.respond op st data).crc = s.crc := rfl
@[simp] theorem State.respond_mode (s : State) (op : Byte) (st : Status) (data : List Byte) : (s.respond op st data).mode = s.mode := rfl
@[simp] theorem State.respond_tag (s : State) (op : Byte) (st : Status) (data : List Byte) : (s.respond op st data).tag = s.tag := rfl
@[simp] theorem State.respond_fcnt (s : State) (op : Byte) (st : Status) (data : List Byte) : (s.respond op st data).fcnt = s.fcnt := rfl
@[simp] theorem State.respond_freq (s : State) (op : Byte) (st : Status) (data : List Byte) : (s.respond op st data).freq = s.freq := rfl
@[simp] theorem State.respond_rxbuf (s : State) (op : Byte) (st : Status) (data : List Byte) : (s.respond op st data).rxbuf = s.rxbuf := rfl
@[simp] theorem State.respond_resetSeen (s : State) (op : Byte) (st : Status) (data : List Byte) : (s.respond op st data).resetSeen = s.resetSeen := rfl
@[simp] theorem State.respond_fault (s : State) (op : Byte) (st : Status) (data : List Byte) : (s.respond op st data).fault = s.fault := rfl
@[simp] theorem State.respond_history (s : State) (op : Byte) (st : Status) (data : List Byte) : (s.respond op st data).history = s.history ++ [.resp op st data] := rfl
@[simp] theorem State.respond_channel (s : State) (op : Byte) (st : Status) (data : List Byte) : (s.respond op st data).channel = s.channel := rfl
@[simp] theorem State.respond_trace (s : State) (op : Byte) (st : Status) (data : List Byte) : (s.respond op st data).trace = s.trace := rfl
@[simp] theorem State.respond_openIn (s : State) (op : Byte) (st : Status) (data : List Byte) : (s.respond op st data).openIn = s.openIn := rfl
@[simp] theorem State.respond_acceptIn (s : State) (op : Byte) (st : Status) (data : List Byte) : (s.respond op st data).acceptIn = s.acceptIn := rfl
@[simp] theorem State.respond_drawn (s : State) (op : Byte) (st : Status) (data : List Byte) : (s.respond op st data).drawn = s.drawn := rfl

/-! ### setConsumer -/

@[simp] theorem State.setConsumer_crc (s : State) (m : Mode) (t : Byte) : (s.setConsumer m t).crc = s.crc := rfl
@[simp] theorem State.setConsumer_mode (s : State) (m : Mode) (t : Byte) : (s.setConsumer m t).mode = m := rfl
@[simp] theorem State.setConsumer_tag (s : State) (m : Mode) (t : Byte) : (s.setConsumer m t).tag = t := rfl
@[simp] theorem State.setConsumer_fcnt (s : State) (m : Mode) (t : Byte) : (s.setConsumer m t).fcnt = s.fcnt := rfl
@[simp] theorem State.setConsumer_freq (s : State) (m : Mode) (t : Byte) : (s.setConsumer m t).freq = s.freq := rfl
@[simp] theorem State.setConsumer_rxbuf (s : State) (m : Mode) (t : Byte) : (s.setConsumer m t).rxbuf = s.rxbuf := rfl
@[simp] theorem State.setConsumer_resetSeen (s : State) (m : Mode) (t : Byte) : (s.setConsumer m t).resetSeen = s.resetSeen := rfl
@[simp] theorem State.setConsumer_fault (s : State) (m : Mode) (t : Byte) : (s.setConsumer m t).fault = s.fault := rfl
@[simp] theorem State.setConsumer_history (s : State) (m : Mode) (t : Byte) : (s.setConsumer m t).history = s.history := rfl
@[simp] theorem State.setConsumer_channel (s : State) (m : Mode) (t : Byte) : (s.setConsumer m t).channel = s.channel := rfl
@[simp] theorem State.setConsumer_trace (s : State) (m : Mode) (t : Byte) : (s.setConsumer m t).trace = s.trace := rfl
@[simp] theorem State.setConsumer_openIn (s : State) (m : Mode) (t : Byte) : (s.setConsumer m t).openIn = s.openIn := rfl
@[simp] theorem State.setConsumer_acceptIn (s : State) (m : Mode) (t : Byte) : (s.setConsumer m t).acceptIn = s.acceptIn := rfl
@[simp] theorem State.setConsumer_drawn (s : State) (m : Mode) (t : Byte) : (s.setConsumer m t).drawn = s.drawn := rfl

/-! ### dispatch -/

@[simp] theorem State.dispatch_crc (s : State) (f : List Byte) : (s.dispatch f).crc = s.crc := rfl
@[simp] theorem State.dispatch_mode (s : State) (f : List Byte) : (s.dispatch f).mode = s.mode := rfl
@[simp] theorem State.dispatch_tag (s : State) (f : List Byte) : (s.dispatch f).tag = s.tag := rfl
@[simp] theorem State.dispatch_fcnt (s : State) (f : List Byte) : (s.dispatch f).fcnt = s.fcnt + 1#32 := rfl
@[simp] theorem State.dispatch_freq (s : State) (f : List Byte) : (s.dispatch f).freq = s.freq := rfl
@[simp] theorem State.dispatch_rxbuf (s : State) (f : List Byte) : (s.dispatch f).rxbuf = s.rxbuf := rfl
@[simp] theorem State.dispatch_resetSeen (s : State) (f : List Byte) : (s.dispatch f).resetSeen = s.resetSeen := rfl
@[simp] theorem State.dispatch_fault (s : State) (f : List Byte) : (s.dispatch f).fault = s.fault := rfl
@[simp] theorem State.dispatch_history (s : State) (f : List Byte) : (s.dispatch f).history = s.history ++ [.frameOut s.tag f (crcOk f)] := rfl
@[simp] theorem State.dispatch_channel (s : State) (f : List Byte) : (s.dispatch f).channel = s.channel := rfl
@[simp] theorem State.dispatch_trace (s : State) (f : List Byte) : (s.dispatch f).trace = s.trace := rfl
@[simp] theorem State.dispatch_openIn (s : State) (f : List Byte) : (s.dispatch f).openIn = s.openIn := rfl
@[simp] theorem State.dispatch_acceptIn (s : State) (f : List Byte) : (s.dispatch f).acceptIn = s.acceptIn := rfl
@[simp] theorem State.dispatch_drawn (s : State) (f : List Byte) : (s.dispatch f).drawn = s.drawn := rfl

/-! ### resetRegisters -/

@[simp] theorem State.resetRegisters_crc (s : State) : (s.resetRegisters).crc = 0x00#8 := rfl
@[simp] theorem State.resetRegisters_mode (s : State) : (s.resetRegisters).mode = .idle := rfl
@[simp] theorem State.resetRegisters_tag (s : State) : (s.resetRegisters).tag = 0x00#8 := rfl
@[simp] theorem State.resetRegisters_fcnt (s : State) : (s.resetRegisters).fcnt = 0#32 := rfl
@[simp] theorem State.resetRegisters_freq (s : State) : (s.resetRegisters).freq = 0#32 := rfl
@[simp] theorem State.resetRegisters_rxbuf (s : State) : (s.resetRegisters).rxbuf = [] := rfl
@[simp] theorem State.resetRegisters_resetSeen (s : State) : (s.resetRegisters).resetSeen = true := rfl
@[simp] theorem State.resetRegisters_fault (s : State) : (s.resetRegisters).fault = s.fault := rfl
@[simp] theorem State.resetRegisters_history (s : State) : (s.resetRegisters).history = s.history := rfl
@[simp] theorem State.resetRegisters_channel (s : State) : (s.resetRegisters).channel = s.channel := rfl
@[simp] theorem State.resetRegisters_trace (s : State) : (s.resetRegisters).trace = s.trace := rfl
@[simp] theorem State.resetRegisters_openIn (s : State) : (s.resetRegisters).openIn = s.openIn := rfl
@[simp] theorem State.resetRegisters_acceptIn (s : State) : (s.resetRegisters).acceptIn = s.acceptIn := rfl
@[simp] theorem State.resetRegisters_drawn (s : State) : (s.resetRegisters).drawn = s.drawn := rfl

/-! ### afterOpen -/

@[simp] theorem State.afterOpen_crc (s : State) : (s.afterOpen).crc = s.crc := by
  unfold State.afterOpen; split <;> rfl
@[simp] theorem State.afterOpen_mode (s : State) : (s.afterOpen).mode = s.mode := by
  unfold State.afterOpen; split <;> rfl
@[simp] theorem State.afterOpen_tag (s : State) : (s.afterOpen).tag = s.tag := by
  unfold State.afterOpen; split <;> rfl
@[simp] theorem State.afterOpen_fcnt (s : State) : (s.afterOpen).fcnt = s.fcnt := by
  unfold State.afterOpen; split <;> rfl
@[simp] theorem State.afterOpen_freq (s : State) : (s.afterOpen).freq = s.freq := by
  unfold State.afterOpen; split <;> rfl
@[simp] theorem State.afterOpen_rxbuf (s : State) : (s.afterOpen).rxbuf = s.rxbuf := by
  unfold State.afterOpen; split <;> rfl
@[simp] theorem State.afterOpen_resetSeen (s : State) : (s.afterOpen).resetSeen = s.resetSeen := by
  unfold State.afterOpen; split <;> rfl
@[simp] theorem State.afterOpen_fault (s : State) : (s.afterOpen).fault = s.fault := by
  unfold State.afterOpen; split <;> rfl
@[simp] theorem State.afterOpen_history (s : State) : (s.afterOpen).history = s.history := by
  unfold State.afterOpen; split <;> rfl
@[simp] theorem State.afterOpen_channel (s : State) : (s.afterOpen).channel = s.channel := by
  unfold State.afterOpen; split <;> rfl
@[simp] theorem State.afterOpen_trace (s : State) : (s.afterOpen).trace = s.trace := by
  unfold State.afterOpen; split <;> rfl
@[simp] theorem State.afterOpen_acceptIn (s : State) : (s.afterOpen).acceptIn = s.acceptIn := by
  unfold State.afterOpen; split <;> rfl

/-! ### afterAccept -/

@[simp] theorem State.afterAccept_crc (s : State) : (s.afterAccept).crc = s.crc := by
  unfold State.afterAccept; split <;> rfl
@[simp] theorem State.afterAccept_mode (s : State) : (s.afterAccept).mode = s.mode := by
  unfold State.afterAccept; split <;> rfl
@[simp] theorem State.afterAccept_tag (s : State) : (s.afterAccept).tag = s.tag := by
  unfold State.afterAccept; split <;> rfl
@[simp] theorem State.afterAccept_fcnt (s : State) : (s.afterAccept).fcnt = s.fcnt := by
  unfold State.afterAccept; split <;> rfl
@[simp] theorem State.afterAccept_freq (s : State) : (s.afterAccept).freq = s.freq := by
  unfold State.afterAccept; split <;> rfl
@[simp] theorem State.afterAccept_rxbuf (s : State) : (s.afterAccept).rxbuf = s.rxbuf := by
  unfold State.afterAccept; split <;> rfl
@[simp] theorem State.afterAccept_resetSeen (s : State) : (s.afterAccept).resetSeen = s.resetSeen := by
  unfold State.afterAccept; split <;> rfl
@[simp] theorem State.afterAccept_fault (s : State) : (s.afterAccept).fault = s.fault := by
  unfold State.afterAccept; split <;> rfl
@[simp] theorem State.afterAccept_history (s : State) : (s.afterAccept).history = s.history := by
  unfold State.afterAccept; split <;> rfl
@[simp] theorem State.afterAccept_channel (s : State) : (s.afterAccept).channel = s.channel := by
  unfold State.afterAccept; split <;> rfl
@[simp] theorem State.afterAccept_trace (s : State) : (s.afterAccept).trace = s.trace := by
  unfold State.afterAccept; split <;> rfl
@[simp] theorem State.afterAccept_openIn (s : State) : (s.afterAccept).openIn = s.openIn := by
  unfold State.afterAccept; split <;> rfl

theorem State.afterOpen_openIn (s : State) : s.afterOpen.openIn = s.openIn.tail := by
  unfold State.afterOpen; split <;> simp_all

theorem State.afterAccept_acceptIn (s : State) : s.afterAccept.acceptIn = s.acceptIn.tail := by
  unfold State.afterAccept; split <;> simp_all

/-! ### Step's own field -/

@[simp] theorem State.withFetchWord_trace (s : State) (nbits w : Nat) : (s.withFetchWord nbits w).trace = tableBytes nbits w :=
  rfl

@[simp] theorem State.withFetchWord_channel (s : State) (nbits w : Nat) :
    (s.withFetchWord nbits w).channel = tableChannel nbits := rfl

end Sys2Proof.Machine
end

