-- ==== Sys2Proof/Laws/Ops.lean ====
section
/-! SUPPORT. What each shared operation can do, said once: the gate, the draws, the transmit primitive and the receive-buffer
primitives, and that the buffer keeps its form. -/

namespace Sys2Proof.Machine

/-! ### The gate -/

theorem State.atEvent_live {s : State} (h : s.Live) (e : State → State) : s.atEvent e = e s := by
  simp [State.atEvent, h.1, h.2]

theorem State.atEvent_faulted {s : State} (h : s.fault ≠ none) (e : State → State) : s.atEvent e = s := by
  simp [State.atEvent, Option.isSome_iff_ne_none, h]

theorem State.atEvent_beforeReset {s : State} (h : s.fault = none) (hr : s.resetSeen = false) (e : State → State) :
    s.atEvent e = s.recordFault .notReset := by
  simp [State.atEvent, h, hr]

/-- Everything the gate can do. -/
theorem State.atEvent_cases (s : State) (e : State → State) :
    (s.fault ≠ none ∧ s.atEvent e = s) ∨
    (s.fault = none ∧ s.resetSeen = false ∧ s.atEvent e = s.recordFault .notReset) ∨
    (s.Live ∧ s.atEvent e = e s) := by
  by_cases hf : s.fault = none
  · cases hr : s.resetSeen
    · exact .inr (.inl ⟨hf, rfl, s.atEvent_beforeReset hf hr e⟩)
    · exact .inr (.inr ⟨⟨hf, hr⟩, State.atEvent_live ⟨hf, hr⟩ e⟩)
  · exact .inl ⟨hf, State.atEvent_faulted hf e⟩

/-! ### Draws and the transmit primitive -/

theorem State.drawAccept_le (s : State) (n : Nat) : s.drawAccept n ≤ n := by
  unfold State.drawAccept
  split <;> exact Nat.min_le_right _ _

@[simp] theorem State.txWrite_status (s : State) (bs : List Byte) :
    (s.txWrite bs).1 = writeStatus bs.length (s.drawAccept bs.length) := rfl

@[simp] theorem State.txWrite_state (s : State) (bs : List Byte) :
    (s.txWrite bs).2 = s.afterAccept.emit (.txWrite bs (s.drawAccept bs.length)) := rfl

theorem encodeFrame_ok {kind : Byte} {p : List Byte} (h : p.length ≤ 255) : encodeFrame kind p = .ok (frameOf kind p) := by
  simp [encodeFrame, Config.maxPayload, Nat.not_lt.mpr h]

theorem encodeFrame_tooLarge {kind : Byte} {p : List Byte} (h : 255 < p.length) :
    encodeFrame kind p = .error .payloadTooLarge := by simp [encodeFrame, Config.maxPayload, h]

/-- SEND_CMD of a payload that fits. -/
theorem sendCmd_ok {kind : Byte} {p : List Byte} (h : p.length ≤ 255) :
    sendCmd kind p = [.enc kind p, .send (frameOf kind p)] := by simp [sendCmd, encodeFrame_ok h]

/-- SEND_CMD of a payload that does not fit sends nothing. -/
theorem sendCmd_tooLarge {kind : Byte} {p : List Byte} (h : 255 < p.length) : sendCmd kind p = [.enc kind p] := by
  simp [sendCmd, encodeFrame_tooLarge h]

theorem State.sendFrame_ok (s : State) (kind : Byte) {p : List Byte} (h : p.length ≤ 255) :
    s.sendFrame kind p = s.txWrite (frameOf kind p) := by
  simp [State.sendFrame, encodeFrame_ok h]

/-! ### The receive buffer -/

theorem State.rxAppend_ok {s : State} (h : s.rxlen ≠ 259) (b : Byte) :
    s.rxAppend b = .ok { s with rxbuf := s.rxbuf ++ [b] } := by
  simp [State.rxAppend, Config.rxbufCap, h]

theorem State.rxPeek_ok {s : State} {n : Nat} (h : n ≤ s.rxlen) : s.rxPeek n = .ok (s.rxbuf.take n) := by
  simp [State.rxPeek, Nat.not_lt.mpr h]

theorem State.rxConsume_ok {s : State} {n : Nat} (h : n ≤ s.rxlen) :
    s.rxConsume n = .ok (s.rxbuf.take n, { s with rxbuf := s.rxbuf.drop n }) := by
  simp [State.rxConsume, State.rxPeek_ok h]

theorem Memory.wf_iff (m : Memory) : m.wf = true ↔ m.length ≤ 259 :=
  decide_eq_true_iff

/-- An append that answers a state keeps the buffer's form. -/
theorem State.rxAppend_wf {s t : State} {b : Byte} (h : Memory.wf s.rxbuf = true) (ha : s.rxAppend b = .ok t) :
    Memory.wf t.rxbuf = true := by
  rw [Memory.wf_iff] at *
  unfold State.rxAppend State.rxlen Config.rxbufCap at ha
  split at ha
  · cases ha
  · cases ha; simp; omega

/-- A consume that answers a state keeps the buffer's form. -/
theorem State.rxConsume_wf {s t : State} {n : Nat} {v : List Byte} (h : Memory.wf s.rxbuf = true)
    (hc : s.rxConsume n = .ok (v, t)) : Memory.wf t.rxbuf = true := by
  rw [Memory.wf_iff] at *
  unfold State.rxConsume State.rxPeek at hc
  split at hc
  · cases hc
  · cases hc; simp; omega

/-- Reset leaves the buffer in its form. -/
theorem State.resetRegisters_wf (s : State) : Memory.wf s.resetRegisters.rxbuf = true := by
  simp [Memory.wf]

end Sys2Proof.Machine
end

