-- ==== Sys2Proof/Laws/Wire.lean ====
section
/-! SUPPORT. Lemmas about the CRC loop (40_crc.md R80, R81) and the frame layout (30_encoding.md R50). -/

namespace Sys2Proof

/-- R85(a), the fold law. -/
theorem crc8From_append (c : Byte) (xs ys : List Byte) : crc8From c (xs ++ ys) = crc8From (crc8From c xs) ys := by
  induction xs generalizing c with
  | nil => rfl
  | cons x xs ih => exact ih _

@[simp] theorem crc8From_nil (c : Byte) : crc8From c [] = c := rfl

@[simp] theorem crc8From_cons (c b : Byte) (bs : List Byte) : crc8From c (b :: bs) = crc8From (crc8Step c b) bs := rfl

/-- One iteration is linear. -/
theorem crc8Shift_xor (c d : Byte) : crc8Shift (c ^^^ d) = crc8Shift c ^^^ crc8Shift d := by
  have h : ∀ x : Byte, crc8Shift x = (x <<< 1) ^^^ (if x.getLsbD 7 then Config.poly else 0#8) := by
    intro x; unfold crc8Shift; split <;> simp
  rw [h, h, h, BitVec.shiftLeft_xor_distrib, BitVec.getLsbD_xor]
  cases c.getLsbD 7 <;> cases d.getLsbD 7
  · simp
  · simp [BitVec.xor_assoc]
  · simp [BitVec.xor_assoc, BitVec.xor_comm (d <<< 1)]
  · have e : Config.poly ^^^ (Config.poly ^^^ d <<< 1) = d <<< 1 := by
      rw [← BitVec.xor_assoc, BitVec.xor_self, BitVec.zero_xor]
    simp [BitVec.xor_assoc, BitVec.xor_comm (d <<< 1), e]

/-- The loop is linear. -/
theorem crc8Shifts_xor (n : Nat) (c d : Byte) : crc8Shifts n (c ^^^ d) = crc8Shifts n c ^^^ crc8Shifts n d := by
  induction n generalizing c d with
  | zero => rfl
  | succ n ih => simp only [crc8Shifts, crc8Shift_xor, ih]

/-- The step depends on `c ^ b` only. -/
theorem crc8Step_eq (c b : Byte) : crc8Step c b = crc8Step 0#8 (c ^^^ b) := by simp [crc8Step]

@[simp] theorem frameBody_length (kind : Byte) (p : List Byte) : (frameBody kind p).length = p.length + 3 := by
  simp [frameBody]

@[simp] theorem frameWith_length (kind : Byte) (p : List Byte) (c : Byte) : (frameWith kind p c).length = p.length + 4 := by
  simp [frameWith]

@[simp] theorem frameOf_length (kind : Byte) (p : List Byte) : (frameOf kind p).length = p.length + 4 := by
  simp [frameOf]

/-- The length byte of a payload that fits is its length. -/
theorem toNat_lengthByte {p : List Byte} (h : p.length ≤ 255) : (BitVec.ofNat 8 p.length).toNat = p.length := by
  rw [BitVec.toNat_ofNat]; omega

end Sys2Proof
end

