-- ==== Sys2Proof/Laws/Ctl.lean ====
section
/-! SUPPORT. What sending a frame and responding can do to a state (42_engine.md R100), and the checker on inputs of at least
four bytes (41_codec.md R92). -/

namespace Sys2Proof.Machine

/-- Everything `send_frame` can do: one write of the frame, or nothing where the encoder refuses the payload. -/
theorem State.sendFrame_cases (s : State) (kind : Byte) (p : List Byte) :
    (p.length ≤ 255 ∧ s.sendFrame kind p = s.txWrite (frameOf kind p)) ∨
    (255 < p.length ∧ s.sendFrame kind p = (.payloadTooLarge, s)) := by
  by_cases h : p.length ≤ 255
  · exact .inl ⟨h, s.sendFrame_ok kind h⟩
  · exact .inr ⟨Nat.not_le.mp h, by simp [State.sendFrame, encodeFrame, Nat.not_le.mp h]⟩

/-- Sending a frame writes the history and the environment's draws, nothing else. -/
theorem State.sendFrame_registers (s : State) (kind : Byte) (p : List Byte) :
    (s.sendFrame kind p).2 = { s with
      history := (s.sendFrame kind p).2.history
      acceptIn := (s.sendFrame kind p).2.acceptIn
      drawn := (s.sendFrame kind p).2.drawn } := by
  rcases s.sendFrame_cases kind p with ⟨_, e⟩ | ⟨_, e⟩ <;> rw [e]
  simp only [State.txWrite_state, State.emit, State.afterAccept]
  split <;> rfl

/-- A frame that fits, sent and answered. -/
theorem State.sendAndRespond_ok (s : State) (op kind : Byte) {p : List Byte} (h : p.length ≤ 255) :
    s.sendAndRespond op kind p =
      (s.afterAccept.emit (.txWrite (frameOf kind p) (s.drawAccept (p.length + 4)))).respond op
        (writeStatus (p.length + 4) (s.drawAccept (p.length + 4))) [] := by
  simp [State.sendAndRespond, State.sendFrame_ok s kind h]

/-- The checker on an input whose declared length fits: only the checksum is left to decide. -/
theorem checkFrame_fits (k l c : Byte) {p : List Byte} (h : p.length = l.toNat) (more : List Byte) :
    checkFrame (Config.marker :: k :: l :: p ++ c :: more) =
      if crc8 (Config.marker :: k :: l :: p) ≠ c then (.checksumFailed, [Config.rspChecksumFailed, 1#8, l] ++ p)
      else (.ok, [k, 0#8, l] ++ p) := by
  have e3 : 3 + l.toNat = p.length + 1 + 1 + 1 := by omega
  have hs : slice 3 (3 + l.toNat) (Config.marker :: k :: l :: p ++ c :: more) = p := by
    rw [e3]; simp [slice]
  have hb : slice 0 (3 + l.toNat) (Config.marker :: k :: l :: p ++ c :: more) = Config.marker :: k :: l :: p := by
    rw [e3]; simp [slice]
  have hc : (Config.marker :: k :: l :: p ++ c :: more).getD (3 + l.toNat) 0#8 = c := by
    rw [e3]; simp
  have h4 : ¬ (Config.marker :: k :: l :: p ++ c :: more).length < 4 := by
    simp only [List.length_append, List.length_cons]; omega
  have hl : ¬ (Config.marker :: k :: l :: p ++ c :: more).length < frameLength l := by
    simp only [frameLength, List.length_append, List.length_cons]; omega
  unfold checkFrame
  rw [if_neg h4, if_neg (by simp)]
  have g2 : (Config.marker :: k :: l :: p ++ c :: more).getD 2 0#8 = l := rfl
  have g1 : (Config.marker :: k :: l :: p ++ c :: more).getD 1 0#8 = k := rfl
  simp only [g2, g1]
  rw [if_neg hl, hs, hb, hc]

end Sys2Proof.Machine
end

