-- ==== Sys2Proof/Laws/Decode.lean ====
section
/-! SUPPORT. Byte order (20_memory.md R39) both ways, and splitting a frame the layout of 30_encoding.md R50 built. -/

namespace Sys2Proof

theorem halfOfBytes_le16 (v : Half) : halfOfBytes (v.extractLsb' 0 8) (v.extractLsb' 8 8) = v := by
  ext i hi
  simp only [halfOfBytes, BitVec.getElem_or, BitVec.getElem_shiftLeft, BitVec.getElem_setWidth, BitVec.getLsbD_extractLsb']
  by_cases h : i < 8
  · simp [h, hi]
  · have h2 : i - 8 < 8 := by omega
    have h3 : 8 + (i - 8) = i := by omega
    simp [h, h2, h3, BitVec.getLsbD_eq_getElem hi]

theorem le16_halfOfBytes (b0 b1 : Byte) : le16 (halfOfBytes b0 b1) = [b0, b1] := by
  simp only [le16, halfOfBytes, List.cons.injEq, and_true]
  constructor <;> ext i hi <;>
    simp only [BitVec.getElem_extractLsb', BitVec.getLsbD_or, BitVec.getLsbD_shiftLeft, BitVec.getLsbD_setWidth]
  · have a : i < 16 := by omega
    simp [hi, a]
  · have a : 8 + i < 16 := by omega
    have b : ¬ 8 + i < 8 := by omega
    have c : i < 16 := by omega
    simp [hi, a, b, c]

theorem wordOfBytes_le32 (v : Word) :
    wordOfBytes (v.extractLsb' 0 8) (v.extractLsb' 8 8) (v.extractLsb' 16 8) (v.extractLsb' 24 8) = v := by
  ext i hi
  simp only [wordOfBytes, BitVec.getElem_or, BitVec.getElem_shiftLeft, BitVec.getElem_setWidth, BitVec.getLsbD_extractLsb']
  have e : v.getLsbD i = v[i] := BitVec.getLsbD_eq_getElem hi
  rcases (by omega : i < 8 ∨ (8 ≤ i ∧ i < 16) ∨ (16 ≤ i ∧ i < 24) ∨ (24 ≤ i ∧ i < 32)) with h | ⟨h1, h2⟩ | ⟨h1, h2⟩ | ⟨h1, h2⟩
  · have a : i < 16 := by omega
    have b : i < 24 := by omega
    simp [h, a, b, e]
  · have a : ¬ i < 8 := by omega
    have b : i < 24 := by omega
    have c : i - 8 < 8 := by omega
    have d : 8 + (i - 8) = i := by omega
    simp [h2, a, b, c, d, e]
  · have a : ¬ i < 8 := by omega
    have b : ¬ i < 16 := by omega
    have b' : ¬ i - 8 < 8 := by omega
    have c : i - 16 < 8 := by omega
    have d : 16 + (i - 16) = i := by omega
    simp [h2, a, b, b', c, d, e]
  · have a : ¬ i < 8 := by omega
    have b : ¬ i < 16 := by omega
    have b' : ¬ i - 8 < 8 := by omega
    have b3 : ¬ i < 24 := by omega
    have b4 : ¬ i - 16 < 8 := by omega
    have c : i - 24 < 8 := by omega
    have d : 24 + (i - 24) = i := by omega
    simp [a, b, b', b3, b4, c, d, e]

theorem le32_wordOfBytes (b0 b1 b2 b3 : Byte) : le32 (wordOfBytes b0 b1 b2 b3) = [b0, b1, b2, b3] := by
  simp only [le32, wordOfBytes, List.cons.injEq, and_true]
  refine ⟨?_, ?_, ?_, ?_⟩ <;> ext i hi <;>
    simp only [BitVec.getElem_extractLsb', BitVec.getLsbD_or, BitVec.getLsbD_shiftLeft, BitVec.getLsbD_setWidth]
  · have a : i < 32 := by omega
    have b : i < 16 := by omega
    have c : i < 24 := by omega
    simp [hi, a, b, c]
  · have a : 8 + i < 32 := by omega
    have b : 8 + i < 16 := by omega
    have c : 8 + i < 24 := by omega
    have d : ¬ 8 + i < 8 := by omega
    have e : i < 32 := by omega
    simp [hi, a, b, c, d, e]
  · have a : 16 + i < 32 := by omega
    have b : 16 + i < 24 := by omega
    have c : ¬ 16 + i < 16 := by omega
    have d : i < 32 := by omega
    have e : b1.getLsbD (16 + i - 8) = false := BitVec.getLsbD_of_ge _ _ (by omega)
    have f : b0.getLsbD (16 + i) = false := BitVec.getLsbD_of_ge _ _ (by omega)
    simp [hi, a, b, c, d, e, f]
  · have a : 24 + i < 32 := by omega
    have c : ¬ 24 + i < 24 := by omega
    have d : i < 32 := by omega
    have e : b1.getLsbD (24 + i - 8) = false := BitVec.getLsbD_of_ge _ _ (by omega)
    have f : b0.getLsbD (24 + i) = false := BitVec.getLsbD_of_ge _ _ (by omega)
    have g : b2.getLsbD (24 + i - 16) = false := BitVec.getLsbD_of_ge _ _ (by omega)
    simp [hi, a, c, d, e, f, g]

/-- Splitting a frame gives back the parts it was built from. -/
theorem splitFrame_frameWith (kind c : Byte) {p : List Byte} (h : p.length ≤ 255) (rest : List Byte) :
    splitFrame (frameWith kind p c ++ rest) = some (kind, p, c, rest) := by
  have hl := toNat_lengthByte h
  have e : frameWith kind p c ++ rest = Config.marker :: kind :: BitVec.ofNat 8 p.length :: (p ++ c :: rest) := by
    simp [frameWith, frameBody]
  rw [e]
  simp only [splitFrame, hl]
  simp [List.getD_eq_getElem?_getD, List.drop_append]

/-! ### The opcode table (R56), one lemma per row -/

theorem decodeOperands_crcClr (bs : List Byte) : decodeOperands Op.crcClr bs = .ok .crcClr bs := rfl
theorem decodeOperands_crcUpd (bs : List Byte) : decodeOperands Op.crcUpd bs = decodeOne bs .crcUpd := rfl
theorem decodeOperands_crcRd (bs : List Byte) : decodeOperands Op.crcRd bs = .ok .crcRd bs := rfl
theorem decodeOperands_enc (bs : List Byte) : decodeOperands Op.enc bs = decodeEnc bs := rfl
theorem decodeOperands_chk (bs : List Byte) : decodeOperands Op.chk bs = decodeCounted bs .chk := rfl
theorem decodeOperands_send (bs : List Byte) : decodeOperands Op.send bs = decodeCounted bs .send := rfl
theorem decodeOperands_start (bs : List Byte) : decodeOperands Op.start bs = decodeOne bs .start := rfl
theorem decodeOperands_stop (bs : List Byte) : decodeOperands Op.stop bs = .ok .stop bs := rfl
theorem decodeOperands_reconf (bs : List Byte) : decodeOperands Op.reconf bs = decodeReconf bs := rfl
theorem decodeOperands_rxByte (bs : List Byte) : decodeOperands Op.rxByte bs = decodeOne bs .rxByte := rfl
theorem decodeOperands_tick (bs : List Byte) : decodeOperands Op.tick bs = .ok .tick bs := rfl
theorem decodeOperands_rdMode (bs : List Byte) : decodeOperands Op.rdMode bs = .ok .rdMode bs := rfl
theorem decodeOperands_rdFcnt (bs : List Byte) : decodeOperands Op.rdFcnt bs = .ok .rdFcnt bs := rfl
theorem decodeOperands_rdFreq (bs : List Byte) : decodeOperands Op.rdFreq bs = .ok .rdFreq bs := rfl
theorem decodeOperands_rdRxlen (bs : List Byte) : decodeOperands Op.rdRxlen bs = .ok .rdRxlen bs := rfl
theorem decodeOperands_rst (bs : List Byte) : decodeOperands Op.rst bs = .ok .rst bs := rfl

/-- The defined opcodes of R56. -/
def definedOps : List Byte :=
  [Op.crcClr, Op.crcUpd, Op.crcRd, Op.enc, Op.chk, Op.send, Op.start, Op.stop, Op.reconf, Op.rxByte, Op.tick, Op.rdMode,
    Op.rdFcnt, Op.rdFreq, Op.rdRxlen, Op.rst]

/-- R59's ranges are exactly the opcodes R56 leaves out. -/
theorem isReservedOp_iff (op : Byte) : isReservedOp op = true ↔ op ∉ definedOps := by
  have h : ∀ n, n < 256 → (isReservedOp (BitVec.ofNat 8 n) = true ↔ BitVec.ofNat 8 n ∉ definedOps) := by decide +kernel
  simpa using h op.toNat op.isLt

/-- A reserved opcode is a 1-byte event. -/
theorem decodeOperands_reserved {op : Byte} (h : isReservedOp op = true) (bs : List Byte) :
    decodeOperands op bs = .ok (.reserved op) bs := by
  rw [isReservedOp_iff] at h
  simp only [definedOps, List.mem_cons, List.not_mem_nil, or_false, not_or] at h
  simp [decodeOperands, h]

/-- A counted operand read back, whatever follows. -/
theorem decodeCounted_encodeCounted {p : List Byte} (h : p.length ≤ 65535) (rest : List Byte) (make : List Byte → Instr) :
    decodeCounted (encodeCounted p ++ rest) make = .ok (make p) rest := by
  have e : (BitVec.ofNat 16 p.length).toNat = p.length := by rw [BitVec.toNat_ofNat]; omega
  simp only [encodeCounted, le16, List.cons_append, List.nil_append, decodeCounted, halfOfBytes_le16, takeCounted, e]
  simp

/-- What `splitFrame` finds is a frame with a payload that fits, at the front of the bytes. -/
theorem splitFrame_some {bs p rest : List Byte} {k c : Byte} (h : splitFrame bs = some (k, p, c, rest)) :
    p.length ≤ 255 ∧ frameWith k p c ++ rest = bs := by
  unfold splitFrame at h
  split at h
  · next m k' l r =>
    split at h
    · next hc =>
      obtain ⟨rfl, hl⟩ := hc
      simp only [Option.some.injEq, Prod.mk.injEq] at h
      obtain ⟨rfl, rfl, rfl, rfl⟩ := h
      have := l.isLt
      have e : (List.take l.toNat r).length = l.toNat := by simp; omega
      refine ⟨by omega, ?_⟩
      simp only [frameWith, frameBody, e, BitVec.ofNat_toNat, BitVec.setWidth_eq, List.cons_append, List.append_assoc,
        List.nil_append]
      congr 3
      conv => rhs; rw [← List.take_append_drop l.toNat r]
      congr 1
      rw [List.drop_eq_getElem_cons hl]
      simp [List.getD_eq_getElem?_getD, hl]
    · cases h
  · cases h

end Sys2Proof
end

