-- ==== Sys2Proof/Laws/PerInstr.lean ====
section
/-! SUPPORT. The per-instruction family EncodedLength: an instruction's encoding has the length 30_encoding.md R58 gives the
event, or R51 the frame. -/

namespace Sys2Proof.Laws

/-- The encoding of `i` has the tabled length. -/
def EncodedLength.Statement (i : Instr) : Prop := (encode i).length = encodedLength i

theorem EncodedLength.crcClr : EncodedLength.Statement .crcClr := rfl
theorem EncodedLength.crcUpd (b : Byte) : EncodedLength.Statement (.crcUpd b) := rfl
theorem EncodedLength.crcRd : EncodedLength.Statement .crcRd := rfl
theorem EncodedLength.enc (kind : Byte) (p : List Byte) : EncodedLength.Statement (.enc kind p) := by
  simp [EncodedLength.Statement, encode, encodedLength, encodeCounted, le16]; omega
theorem EncodedLength.chk (bs : List Byte) : EncodedLength.Statement (.chk bs) := by
  simp [EncodedLength.Statement, encode, encodedLength, encodeCounted, le16]; omega
theorem EncodedLength.send (bs : List Byte) : EncodedLength.Statement (.send bs) := by
  simp [EncodedLength.Statement, encode, encodedLength, encodeCounted, le16]; omega
theorem EncodedLength.start (tag : Byte) : EncodedLength.Statement (.start tag) := rfl
theorem EncodedLength.stop : EncodedLength.Statement .stop := rfl
theorem EncodedLength.reconf (baud : Word) (dbits sbits par flow : Byte) :
    EncodedLength.Statement (.reconf baud dbits sbits par flow) := rfl
theorem EncodedLength.rxByte (b : Byte) : EncodedLength.Statement (.rxByte b) := rfl
theorem EncodedLength.tick : EncodedLength.Statement .tick := rfl
theorem EncodedLength.rdMode : EncodedLength.Statement .rdMode := rfl
theorem EncodedLength.rdFcnt : EncodedLength.Statement .rdFcnt := rfl
theorem EncodedLength.rdFreq : EncodedLength.Statement .rdFreq := rfl
theorem EncodedLength.rdRxlen : EncodedLength.Statement .rdRxlen := rfl
theorem EncodedLength.rst : EncodedLength.Statement .rst := rfl
theorem EncodedLength.reserved (op : Byte) : EncodedLength.Statement (.reserved op) := rfl
theorem EncodedLength.frameGetData : EncodedLength.Statement .frameGetData := rfl
theorem EncodedLength.frameStop : EncodedLength.Statement .frameStop := rfl
theorem EncodedLength.frameReconfigureUart (c0 c1 c2 c3 c4 : Byte) :
    EncodedLength.Statement (.frameReconfigureUart c0 c1 c2 c3 c4) := rfl
theorem EncodedLength.respAccepted (p : List Byte) (c : Byte) : EncodedLength.Statement (.respAccepted p c) := by
  simp [EncodedLength.Statement, encode, encodedLength]; omega
theorem EncodedLength.respRejected (p : List Byte) (c : Byte) : EncodedLength.Statement (.respRejected p c) := by
  simp [EncodedLength.Statement, encode, encodedLength]; omega
theorem EncodedLength.respChecksumFailed (p : List Byte) (c : Byte) : EncodedLength.Statement (.respChecksumFailed p c) := by
  simp [EncodedLength.Statement, encode, encodedLength]; omega
theorem EncodedLength.respMalformed (p : List Byte) (c : Byte) : EncodedLength.Statement (.respMalformed p c) := by
  simp [EncodedLength.Statement, encode, encodedLength]; omega

end Sys2Proof.Laws
end

