-- ==== Sys2Proof/Laws/Rxs.lean ====
section
/-! SUPPORT. The turns of the extraction loop (43_rx_sync.md R130), one lemma for each thing a turn can do. -/

namespace Sys2Proof.Machine

/-- Step 1: fewer than three bytes. -/
theorem State.rxLoop_short {s : State} (h : s.rxlen < 3) (fuel : Nat) : s.rxLoop fuel = s := by
  cases fuel <;> simp [State.rxLoop, Config.hdrLen, h]

/-- The header byte `i < 3` of a peeked header is the buffer's. -/
theorem getD_take_three (xs : List Byte) {i : Nat} (h : i < 3) (d : Byte) : (xs.take 3).getD i d = xs.getD i d := by
  simp [List.getD_eq_getElem?_getD, h]

/-- Step 2: the first of three bytes is not the marker. -/
theorem State.rxLoop_drop {s : State} (h : 3 ≤ s.rxlen) (hm : s.rxbuf.getD 0 0#8 ≠ Config.marker) (fuel : Nat) :
    s.rxLoop (fuel + 1) = State.rxLoop fuel { s with rxbuf := s.rxbuf.drop 1 } := by
  have h1 : 1 ≤ s.rxlen := by omega
  simp only [State.rxLoop, Config.hdrLen, Nat.not_lt.mpr h, if_false, State.rxPeek_ok h, State.rxConsume_ok h1,
    getD_take_three _ (show 0 < 3 by omega), ne_eq, hm, not_false_eq_true, if_true]

/-- Step 3: the header stands and the frame is not complete. -/
theorem State.rxLoop_wait {s : State} (h : 3 ≤ s.rxlen) (hm : s.rxbuf.getD 0 0#8 = Config.marker)
    (hl : s.rxlen < frameLength (s.rxbuf.getD 2 0#8)) (fuel : Nat) : s.rxLoop (fuel + 1) = s := by
  simp only [State.rxLoop, Config.hdrLen, Nat.not_lt.mpr h, if_false, State.rxPeek_ok h,
    getD_take_three _ (show 0 < 3 by omega), getD_take_three _ (show 2 < 3 by omega), hm, ne_eq, not_true_eq_false, hl, if_true]

/-- Step 4: the frame is complete; it is consumed, dispatched and counted. -/
theorem State.rxLoop_frame {s : State} (h : 3 ≤ s.rxlen) (hm : s.rxbuf.getD 0 0#8 = Config.marker)
    (hl : frameLength (s.rxbuf.getD 2 0#8) ≤ s.rxlen) (fuel : Nat) :
    s.rxLoop (fuel + 1) =
      State.rxLoop fuel (State.dispatch { s with rxbuf := s.rxbuf.drop (frameLength (s.rxbuf.getD 2 0#8)) }
        (s.rxbuf.take (frameLength (s.rxbuf.getD 2 0#8)))) := by
  simp only [State.rxLoop, Config.hdrLen, Nat.not_lt.mpr h, if_false, State.rxPeek_ok h,
    getD_take_three _ (show 0 < 3 by omega), getD_take_three _ (show 2 < 3 by omega), hm, ne_eq, not_true_eq_false,
    Nat.not_lt.mpr hl, State.rxConsume_ok hl]

/-- Everything one turn can do. -/
theorem State.rxLoop_turn (s : State) (fuel : Nat) :
    (s.rxLoop (fuel + 1) = s) ∨
    (3 ≤ s.rxlen ∧ s.rxbuf.getD 0 0#8 ≠ Config.marker ∧
      s.rxLoop (fuel + 1) = State.rxLoop fuel { s with rxbuf := s.rxbuf.drop 1 }) ∨
    (3 ≤ s.rxlen ∧ s.rxbuf.getD 0 0#8 = Config.marker ∧ frameLength (s.rxbuf.getD 2 0#8) ≤ s.rxlen ∧
      s.rxLoop (fuel + 1) =
        State.rxLoop fuel (State.dispatch { s with rxbuf := s.rxbuf.drop (frameLength (s.rxbuf.getD 2 0#8)) }
          (s.rxbuf.take (frameLength (s.rxbuf.getD 2 0#8))))) := by
  by_cases h : s.rxlen < 3
  · exact .inl (State.rxLoop_short h _)
  have h3 : 3 ≤ s.rxlen := Nat.not_lt.mp h
  by_cases hm : s.rxbuf.getD 0 0#8 = Config.marker
  · by_cases hl : s.rxlen < frameLength (s.rxbuf.getD 2 0#8)
    · exact .inl (State.rxLoop_wait h3 hm hl _)
    · exact .inr (.inr ⟨h3, hm, Nat.not_lt.mp hl, State.rxLoop_frame h3 hm (Nat.not_lt.mp hl) _⟩)
  · exact .inr (.inl ⟨h3, hm, State.rxLoop_drop h3 hm _⟩)

/-- Receiving at a buffer that is not full, in Streaming. -/
theorem State.receive_streaming {s : State} (h : s.mode = .streaming) (hl : s.rxlen ≠ 259) (b : Byte) :
    s.receive b = State.rxLoop (s.rxlen + 1) { s with rxbuf := s.rxbuf ++ [b] } := by
  simp [State.receive, h, State.rxAppend_ok hl, State.rxlen]

/-- Receiving outside Streaming. -/
theorem State.receive_discards {s : State} (h : s.mode ≠ .streaming) (b : Byte) : s.receive b = s := by
  simp [State.receive, h]

/-- Receiving at a full buffer. -/
theorem State.receive_overflow {s : State} (h : s.mode = .streaming) (hl : s.rxlen = 259) (b : Byte) :
    s.receive b = s.recordFault .rxOverflow := by
  simp [State.receive, h, State.rxAppend, Config.rxbufCap, hl]

/-! ### Chunks -/

theorem State.receiveAll_append (s : State) (xs ys : List Byte) :
    s.receiveAll (xs ++ ys) = (s.receiveAll xs).receiveAll ys := by
  induction xs generalizing s with
  | nil => rfl
  | cons x xs ih => exact ih _

/-- A chunk has no effect once a fault is recorded. -/
theorem State.receiveAll_faulted {s : State} (h : s.fault ≠ none) (bs : List Byte) : s.receiveAll bs = s := by
  induction bs with
  | nil => rfl
  | cons b bs ih => simp only [State.receiveAll, State.atEvent_faulted h, ih]

/-! ### The source's loop -/

/-- One turn and the rest: the machine's loop does to the buffer, the history and the counter what the source's loop says. -/
theorem State.rxLoop_eq_extractAll (fuel : Nat) (s : State) :
    s.rxLoop fuel = { s with
      rxbuf := (extractAll fuel s.rxbuf).2
      fcnt := s.fcnt + BitVec.ofNat 32 (extractAll fuel s.rxbuf).1.length
      history := s.history ++ frameRecords s.tag (extractAll fuel s.rxbuf).1 } := by
  induction fuel generalizing s with
  | zero => simp [State.rxLoop, extractAll, frameRecords]
  | succ n ih =>
    by_cases h : s.rxbuf.length < 3
    · rw [State.rxLoop_short h]; simp [extractAll, Config.hdrLen, h, frameRecords]
    have h3 : 3 ≤ s.rxlen := Nat.not_lt.mp h
    by_cases hm : s.rxbuf.getD 0 0#8 = Config.marker
    · by_cases hl : s.rxbuf.length < frameLength (s.rxbuf.getD 2 0#8)
      · rw [State.rxLoop_wait h3 hm hl]
        simp only [extractAll, Config.hdrLen, h, hm, hl, if_true, if_false, ne_eq, not_true_eq_false]
        simp [frameRecords]
      · rw [State.rxLoop_frame h3 hm (Nat.not_lt.mp hl), ih]
        simp only [extractAll, Config.hdrLen, h, hm, hl, if_false, ne_eq, not_true_eq_false, State.dispatch_rxbuf,
          State.dispatch_tag, State.dispatch_history, State.dispatch_fcnt]
        simp only [State.dispatch, State.emit, frameRecords, List.map_cons, List.append_assoc, List.length_cons,
          List.cons_append, List.nil_append]
        congr 1
        rw [BitVec.ofNat_add, BitVec.add_assoc, BitVec.add_comm (1#32)]
    · rw [State.rxLoop_drop h3 hm, ih]
      simp only [extractAll, Config.hdrLen, h, hm, if_false, ne_eq, not_false_eq_true, if_true]

end Sys2Proof.Machine
end

