-- ==== Sys2Proof/Tests/Slice0.lean ====
section
/-! SUPPORT. The smoke tests, one-step tests whose expected values come from 95_test_vectors.md, and for every statement with
hypotheses a theorem that meets them. -/

namespace Sys2Proof.Tests

open Sys2Proof Sys2Proof.Machine

/-- The next state, where there is one. -/
def nextOf (r : Result) : Option State :=
  match r with
  | .next t => some t
  | .fault _ => none
  | .refused _ => none

/-- The refusal, where there is one. -/
def refusalOf (r : Result) : Option Refusal :=
  match r with
  | .next _ => none
  | .fault _ => none
  | .refused x => some x

/-- The records an instruction appends to an empty history. -/
def outputs (i : Instr) (s : State) : Option (List Record) := (nextOf (exec i s)).map (·.history)

/-- The registers of V40 to V60: MODE, TAG, FCNT, FREQ, RXBUF. -/
def regs (t : State) : BitVec 2 × Byte × Word × Word × List Byte := (t.mode.code, t.tag, t.fcnt, t.freq, t.rxbuf)

/-- Streaming for the consumer 5, with a receive buffer. -/
def streamingWith (buf : List Byte) : State := { State.reset with mode := .streaming, tag := 0x05#8, rxbuf := buf }

/-- The environment answers the next sample and the next write. -/
def withInputs (o : Bool) (k : Nat) : State := { State.reset with openIn := [o], acceptIn := [k] }

/-- A state at power-up with other register contents than reset leaves. -/
def powerUp : State :=
  { State.reset with
    resetSeen := false, crc := 0x5A#8, mode := .stopped, tag := 0x11#8, fcnt := 7#32, freq := 9#32, rxbuf := [0x01#8] }

/-- A state with a recorded fault. -/
def faulted : State := { State.reset with fault := some .notReset }

/-- The fullest receive buffer between events: 258 bytes of the largest frame (10_state.md R24(d)). -/
def fullestBuffer : List Byte := 0xAA#8 :: 0x01#8 :: 0xFF#8 :: List.replicate 255 0x00#8

/-! ### WellFormed: an ill-formed term for each check -/

theorem test_wellFormed_enc_count : WellFormed (.enc 0x01#8 (List.replicate 65536 0x00#8)) = false := by
  rw [WellFormed, countFits, List.length_replicate]; rfl
theorem test_wellFormed_chk_count : WellFormed (.chk (List.replicate 65536 0x00#8)) = false := by
  rw [WellFormed, countFits, List.length_replicate]; rfl
theorem test_wellFormed_send_count : WellFormed (.send (List.replicate 65536 0x00#8)) = false := by
  rw [WellFormed, countFits, List.length_replicate]; rfl
theorem test_wellFormed_reserved_defined : WellFormed (.reserved 0x20#8) = false := by decide
theorem test_wellFormed_reconfigure_dataBits : WellFormed (.frameReconfigureUart 0x01#8 0x03#8 0x01#8 0x01#8 0x01#8) = false := by
  decide
theorem test_wellFormed_reconfigure_stopBits : WellFormed (.frameReconfigureUart 0x01#8 0x01#8 0x04#8 0x01#8 0x01#8) = false := by
  decide
theorem test_wellFormed_reconfigure_parity : WellFormed (.frameReconfigureUart 0x01#8 0x01#8 0x01#8 0x00#8 0x01#8) = false := by
  decide
theorem test_wellFormed_reconfigure_flow : WellFormed (.frameReconfigureUart 0x01#8 0x01#8 0x01#8 0x01#8 0x03#8) = false := by
  decide
theorem test_wellFormed_accepted_length : WellFormed (.respAccepted (List.replicate 256 0x00#8) 0x00#8) = false := by
  rw [WellFormed, payloadFits, List.length_replicate]; rfl
theorem test_wellFormed_rejected_length : WellFormed (.respRejected (List.replicate 256 0x00#8) 0x00#8) = false := by
  rw [WellFormed, payloadFits, List.length_replicate]; rfl
theorem test_wellFormed_checksumFailed_length :
    WellFormed (.respChecksumFailed (List.replicate 256 0x00#8) 0x00#8) = false := by
  rw [WellFormed, payloadFits, List.length_replicate]; rfl
theorem test_wellFormed_malformed_length : WellFormed (.respMalformed (List.replicate 256 0x00#8) 0x00#8) = false := by
  rw [WellFormed, payloadFits, List.length_replicate]; rfl

/-! ### Decoding: each constructor from bytes written out from R52, R53, R56, R57 -/

theorem test_decode_crcClr : decode .events [0x01#8, 0x02#8] = .ok .crcClr [0x02#8] := by decide
theorem test_decode_crcUpd : decode .events [0x02#8, 0xAA#8] = .ok (.crcUpd 0xAA#8) [] := by decide
theorem test_decode_crcRd : decode .events [0x03#8] = .ok .crcRd [] := by decide
theorem test_decode_enc :
    decode .events [0x10#8, 0x10#8, 0x03#8, 0x00#8, 0x01#8, 0x02#8, 0x03#8, 0x41#8] =
      .ok (.enc 0x10#8 [0x01#8, 0x02#8, 0x03#8]) [0x41#8] := by decide
theorem test_decode_chk :
    decode .events [0x11#8, 0x02#8, 0x00#8, 0xAA#8, 0x02#8] = .ok (.chk [0xAA#8, 0x02#8]) [] := by decide
/-- P5: `12 04 00 AA 02 00 E5`. -/
theorem test_decode_send :
    decode .events [0x12#8, 0x04#8, 0x00#8, 0xAA#8, 0x02#8, 0x00#8, 0xE5#8] =
      .ok (.send [0xAA#8, 0x02#8, 0x00#8, 0xE5#8]) [] := by decide
theorem test_decode_start : decode .events [0x20#8, 0x33#8] = .ok (.start 0x33#8) [] := by decide
theorem test_decode_stop : decode .events [0x21#8] = .ok .stop [] := by decide
/-- V42: 115200 is `00 C2 01 00`. -/
theorem test_decode_reconf :
    decode .events [0x22#8, 0x00#8, 0xC2#8, 0x01#8, 0x00#8, 0x08#8, 0x02#8, 0x03#8, 0x01#8] =
      .ok (.reconf 115200#32 8#8 2#8 3#8 1#8) [] := by decide
theorem test_decode_rxByte : decode .events [0x30#8, 0x55#8] = .ok (.rxByte 0x55#8) [] := by decide
theorem test_decode_tick : decode .events [0x31#8] = .ok .tick [] := by decide
theorem test_decode_rdMode : decode .events [0x40#8, 0xFF#8, 0x40#8] = .ok .rdMode [0xFF#8, 0x40#8] := by decide
theorem test_decode_rdFcnt : decode .events [0x41#8] = .ok .rdFcnt [] := by decide
theorem test_decode_rdFreq : decode .events [0x42#8] = .ok .rdFreq [] := by decide
theorem test_decode_rdRxlen : decode .events [0x43#8] = .ok .rdRxlen [] := by decide
theorem test_decode_rst : decode .events [0xFF#8] = .ok .rst [] := by decide
/-- V45's reserved opcodes. -/
theorem test_decode_reserved :
    ∀ op ∈ [0x05#8, 0x00#8, 0x13#8, 0x2F#8, 0x32#8, 0x44#8, 0xFE#8], decode .events [op] = .ok (.reserved op) [] := by
  decide
theorem test_decode_frameGetData :
    decode .wireOut [0xAA#8, 0x01#8, 0x00#8, 0xDA#8] = .ok .frameGetData [] := by decide +kernel
theorem test_decode_frameStop : decode .wireOut [0xAA#8, 0x02#8, 0x00#8, 0xE5#8] = .ok .frameStop [] := by decide +kernel
/-- V20: `AA 03 05 02 01 03 02 02 CF`. -/
theorem test_decode_frameReconfigureUart :
    decode .wireOut [0xAA#8, 0x03#8, 0x05#8, 0x02#8, 0x01#8, 0x03#8, 0x02#8, 0x02#8, 0xCF#8] =
      .ok (.frameReconfigureUart 0x02#8 0x01#8 0x03#8 0x02#8 0x02#8) [] := by decide +kernel
theorem test_decode_respAccepted :
    decode .wireIn [0xAA#8, 0x01#8, 0x01#8, 0xAA#8, 0x42#8, 0x77#8] = .ok (.respAccepted [0xAA#8] 0x42#8) [0x77#8] := by
  decide
theorem test_decode_respRejected :
    decode .wireIn [0xAA#8, 0x02#8, 0x00#8, 0xE5#8] = .ok (.respRejected [] 0xE5#8) [] := by decide
theorem test_decode_respChecksumFailed :
    decode .wireIn [0xAA#8, 0x03#8, 0x00#8, 0xF0#8] = .ok (.respChecksumFailed [] 0xF0#8) [] := by decide
theorem test_decode_respMalformed :
    decode .wireIn [0xAA#8, 0x04#8, 0x00#8, 0x9B#8] = .ok (.respMalformed [] 0x9B#8) [] := by decide
/-- V60: `11 05 00 AA 02`. -/
theorem test_decode_truncated :
    decode .events [0x11#8, 0x05#8, 0x00#8, 0xAA#8, 0x02#8] = .reject .traceTruncated := by decide
theorem test_decode_notCommandFrame :
    decode .wireOut [0xAA#8, 0x02#8, 0x00#8, 0xE4#8] = .reject .notCommandFrame := by decide +kernel

/-! ### The opcode table's words run as the first instruction after reset -/

theorem test_table_rst : decodeTableWord 8 0xFF = some .rst := by decide
theorem test_table_reconf : decodeTableWord 8 0x22 = some (.reconf 0#32 0#8 0#8 0#8 0#8) := by decide
theorem test_table_response : decodeTableWord 16 0xAA04 = some (.respMalformed [] 0x00#8) := by decide
theorem test_table_step :
    (nextOf (step (State.reset.withFetchWord 8 0x40))).map (·.history) = some [.resp 0x40#8 .ok [0x00#8, 0x00#8]] := by
  decide

/-! ### Tables -/

/-- R60's codes. -/
theorem test_status_codes :
    [Status.ok, .transportNotOpen, .shortWrite, .badMarker, .truncated, .checksumFailed, .payloadTooLarge, .unmappedSetting,
      .illegalOp].map Status.code = [0#8, 1#8, 2#8, 3#8, 4#8, 5#8, 6#8, 7#8, 8#8] := by decide
/-- R55: 3 times 4, 9 times 2 and 1 bytes are the 31 of R6, each field beginning where the one before ends. -/
theorem test_sensor_layout :
    Config.sensorFields.foldl (fun off f => if off = f.1 then off + f.2.width else 0) 0 = Config.sensorPayloadLen := by decide
/-- V11: the check word of the CRC. -/
theorem test_crc8_check :
    crc8 [0x31#8, 0x32#8, 0x33#8, 0x34#8, 0x35#8, 0x36#8, 0x37#8, 0x38#8, 0x39#8] = 0xF4#8 := by decide +kernel

/-! ### One step of each instruction -/

theorem test_crcClr_clears : (nextOf (exec .crcClr { State.reset with crc := 0xE5#8 })).map (·.crc) = some 0x00#8 := by decide
/-- V10: 5F and 02 give 94. -/
theorem test_crcUpd_step : (nextOf (exec (.crcUpd 0x02#8) { State.reset with crc := 0x5F#8 })).map (·.crc) = some 0x94#8 := by
  decide +kernel
theorem test_crcRd_reads : outputs .crcRd { State.reset with crc := 0xE5#8 } = some [.resp 0x03#8 .ok [0xE5#8]] := by decide
/-- V20: the marker inside a payload is not escaped. -/
theorem test_enc_marker_in_payload :
    outputs (.enc 0x01#8 [0xAA#8]) State.reset = some [.resp 0x10#8 .ok [0xAA#8, 0x01#8, 0x01#8, 0xAA#8, 0x42#8]] := by
  decide +kernel
/-- V25: a length-byte flip lowering L. -/
theorem test_chk_lowered_length :
    outputs (.chk [0xAA#8, 0x10#8, 0x02#8, 0x01#8, 0x02#8, 0x03#8, 0x8A#8]) State.reset =
      some [.resp 0x11#8 .checksumFailed [0x03#8, 0x01#8, 0x02#8, 0x01#8, 0x02#8]] := by decide +kernel
/-- V25: length is tested before the marker. -/
theorem test_chk_short_before_marker : outputs (.chk [0x55#8]) State.reset = some [.resp 0x11#8 .truncated []] := by decide
/-- R64 with V20: a payload of 256 bytes is rejected by ENC, and SEND_CMD sends nothing. -/
theorem test_sendCmd_rejected :
    sendCmd 0x01#8 (List.replicate 256 0x00#8) = [.enc 0x01#8 (List.replicate 256 0x00#8)] := by
  rw [sendCmd, encodeFrame, List.length_replicate]; rfl
/-- V43: a malformed frame is not checked. -/
theorem test_send_unchecked :
    outputs (.send [0x01#8, 0x02#8, 0x03#8]) (withInputs true 3) =
      some [.txWrite [0x01#8, 0x02#8, 0x03#8] 3, .resp 0x12#8 .ok []] := by decide
/-- V40: a short write leaves the consumer registered. -/
theorem test_start_short_write :
    outputs (.start 0x33#8) (withInputs true 2) =
      some [.txWrite [0xAA#8, 0x01#8, 0x00#8, 0xDA#8] 2, .resp 0x20#8 .shortWrite []] ∧
    (nextOf (exec (.start 0x33#8) (withInputs true 2))).map regs = some (1#2, 0x33#8, 0#32, 0#32, []) := by decide +kernel
/-- V40: the transport is closed. -/
theorem test_start_closed :
    outputs (.start 0x07#8) (withInputs false 4) = some [.resp 0x20#8 .transportNotOpen []] ∧
    (nextOf (exec (.start 0x07#8) (withInputs false 4))).map regs = some (0#2, 0x00#8, 0#32, 0#32, []) := by decide
/-- V41: with nothing accepted the mode is still Stopped. -/
theorem test_stop_short_write :
    outputs .stop (withInputs true 0) = some [.txWrite [0xAA#8, 0x02#8, 0x00#8, 0xE5#8] 0, .resp 0x21#8 .shortWrite []] ∧
    (nextOf (exec .stop (withInputs true 0))).map regs = some (2#2, 0x00#8, 0#32, 0#32, []) := by decide +kernel
/-- V42, its second row. -/
theorem test_reconf_mapped :
    outputs (.reconf 19200#32 7#8 4#8 1#8 1#8) (withInputs true 9) =
      some [.txWrite [0xAA#8, 0x03#8, 0x05#8, 0x02#8, 0x01#8, 0x03#8, 0x02#8, 0x02#8, 0xCF#8] 9, .resp 0x22#8 .ok []] := by
  decide +kernel
/-- V42: mark parity, from Streaming; the consumer is cleared all the same. -/
theorem test_reconf_unmapped :
    (nextOf (exec (.reconf 9600#32 8#8 2#8 3#8 0#8) (streamingWith [0x55#8]))).map regs =
      some (0#2, 0x00#8, 0#32, 0#32, [0x55#8]) ∧
    outputs (.reconf 9600#32 8#8 2#8 3#8 0#8) (streamingWith []) = some [.resp 0x22#8 .unmappedSetting []] := by decide
/-- V50: the third byte makes one drop. -/
theorem test_rxByte_drop :
    (nextOf (exec (.rxByte 0x55#8) (streamingWith [0x55#8, 0x55#8]))).map regs =
      some (1#2, 0x05#8, 0#32, 0#32, [0x55#8, 0x55#8]) := by decide
/-- V50 and V44: a frame with a bad checksum is dispatched, and the counter wraps. -/
theorem test_rxByte_frame :
    outputs (.rxByte 0xDB#8) { streamingWith [0xAA#8, 0x01#8, 0x00#8] with fcnt := 0xFFFFFFFF#32 } =
      some [.frameOut 0x05#8 [0xAA#8, 0x01#8, 0x00#8, 0xDB#8] false] ∧
    (nextOf (exec (.rxByte 0xDB#8) { streamingWith [0xAA#8, 0x01#8, 0x00#8] with fcnt := 0xFFFFFFFF#32 })).map regs =
      some (1#2, 0x05#8, 0#32, 0#32, []) := by decide +kernel
/-- V44. -/
theorem test_tick : (nextOf (exec .tick { State.reset with fcnt := 3#32 })).map regs = some (0#2, 0x00#8, 0#32, 3#32, []) := by
  decide
/-- V44. -/
theorem test_rdMode : outputs .rdMode { State.reset with mode := .streaming, tag := 0x07#8 } =
    some [.resp 0x40#8 .ok [0x01#8, 0x07#8]] := by decide
/-- V44. -/
theorem test_rdFcnt : outputs .rdFcnt { State.reset with fcnt := 258#32 } =
    some [.resp 0x41#8 .ok [0x02#8, 0x01#8, 0x00#8, 0x00#8]] := by decide
/-- V44. -/
theorem test_rdFreq : outputs .rdFreq { State.reset with freq := 1#32 } =
    some [.resp 0x42#8 .ok [0x01#8, 0x00#8, 0x00#8, 0x00#8]] := by decide
/-- The largest buffer between events is 258 bytes long, `02 01` least significant first (R110). -/
theorem test_rdRxlen : outputs .rdRxlen (streamingWith fullestBuffer) = some [.resp 0x43#8 .ok [0x02#8, 0x01#8]] := by
  decide +kernel
/-- V60. -/
theorem test_rst : (nextOf (exec .rst (streamingWith [0xAA#8]))).map regs = some (0#2, 0x00#8, 0#32, 0#32, []) := by decide
/-- P6: the RST does not recover the run. -/
theorem test_rst_faulted : nextOf (exec .rst { powerUp with fault := some .notReset }) =
    some { powerUp with fault := some .notReset } := by decide
/-- V45. -/
theorem test_reserved : outputs (.reserved 0x05#8) State.reset = some [.resp 0x05#8 .illegalOp []] := by decide
/-- R100 with V1's frame: the frame is offered, and there is no `Resp`. -/
theorem test_frameStop :
    outputs .frameStop (withInputs true 4) = some [.txWrite [0xAA#8, 0x02#8, 0x00#8, 0xE5#8] 4] := by decide +kernel
theorem test_frameGetData :
    outputs .frameGetData (withInputs true 1) = some [.txWrite [0xAA#8, 0x01#8, 0x00#8, 0xDA#8] 1] := by decide +kernel
/-- V20: `AA 03 05 01 02 02 03 01 24`. -/
theorem test_frameReconfigureUart :
    outputs (.frameReconfigureUart 0x01#8 0x02#8 0x02#8 0x03#8 0x01#8) (withInputs true 9) =
      some [.txWrite [0xAA#8, 0x03#8, 0x05#8, 0x01#8, 0x02#8, 0x02#8, 0x03#8, 0x01#8, 0x24#8] 9] := by decide +kernel
/-- V50: `AA 01 01 AA 42`. -/
theorem test_respAccepted :
    outputs (.respAccepted [0xAA#8] 0x42#8) (streamingWith []) =
      some [.frameOut 0x05#8 [0xAA#8, 0x01#8, 0x01#8, 0xAA#8, 0x42#8] true] := by decide +kernel
/-- V50's row 12: a header that stands in the buffer swallows the frame. -/
theorem test_respRejected_swallowed :
    (nextOf (exec (.respRejected [] 0xE5#8) (streamingWith [0x00#8, 0xAA#8, 0x00#8]))).map regs =
      some (1#2, 0x05#8, 0#32, 0#32, [0xAA#8, 0x00#8, 0xAA#8, 0x02#8, 0x00#8, 0xE5#8]) := by decide +kernel
/-- V25: `AA 03 00 F0` is a valid frame, so its advisory bit is set. -/
theorem test_respChecksumFailed :
    outputs (.respChecksumFailed [] 0xF0#8) (streamingWith []) =
      some [.frameOut 0x05#8 [0xAA#8, 0x03#8, 0x00#8, 0xF0#8] true] := by decide +kernel
/-- V11: the CRC of `AA 04 00` is 9B. -/
theorem test_respMalformed :
    outputs (.respMalformed [] 0x9A#8) (streamingWith []) =
      some [.frameOut 0x05#8 [0xAA#8, 0x04#8, 0x00#8, 0x9A#8] false] := by decide +kernel

/-! ### Witnesses: every hypothesis can be met, at the boundary values of each clause -/

theorem witness_ResetEventWritesTheRuleValues : State.reset.fault = none ∧ faulted.fault ≠ none := by decide
theorem witness_ResetStateHoldsTheRuleValues :
    powerUp.PowerUp ∧ exec .rst powerUp = .next { State.reset with fault := powerUp.fault } := ⟨⟨rfl, rfl, rfl⟩, rfl⟩
theorem witness_EventBeforeResetFaults :
    Instr.rdMode ≠ .rst ∧ Instr.respAccepted [] 0xDA#8 ≠ .rst ∧ powerUp.fault = none ∧ powerUp.resetSeen = false := by decide
theorem witness_RecordedFaultIsSticky : faulted.fault ≠ none := by decide
theorem witness_LiveMachineNeverFaults : (streamingWith fullestBuffer).Live ∧ (streamingWith fullestBuffer).Inv := by
  decide +kernel
theorem witness_CrcUpdFeedsOneByte : State.reset.Live ∧ State.reset.crc = 0x00#8 := by decide
theorem witness_CrcClrRestartsTheGenerator :
    State.reset.Live ∧ ∃ t u, exec .crcClr State.reset = .next t ∧ exec .crcClr t = .next u := ⟨by decide, _, _, rfl, rfl⟩
theorem witness_CrcRdReadsTheGenerator : State.reset.Live ∧ powerUp.fault = none := by decide
theorem witness_CrcBlockComputesTheCrc : { State.reset with crc := 0x5A#8 }.Live := by decide
theorem witness_CrcIsLinear : [0xAA#8, 0x01#8, 0x00#8].length = [0xAA#8, 0x02#8, 0x00#8].length := by decide
theorem witness_CrcDetectsShortBursts :
    0x01#8 ≠ (0x00#8 : Byte) ∧ 0x80#8 ≠ (0x00#8 : Byte) ∧ 0xFF#8 ≠ (0x00#8 : Byte) ∧ 0 ≤ 8 ∧ 8 ≤ 8 := by decide
theorem witness_EncBuildsTheFrame :
    State.reset.Live ∧ (List.replicate 255 0x00#8).length ≤ 255 ∧ 255 < (List.replicate 256 0x00#8).length ∧
      ([] : List Byte).length ≤ 255 := by
  rw [List.length_replicate, List.length_replicate]; decide
/-- V25's rows, one per clause, the two TRUNCATED clauses at their last lengths. -/
theorem witness_ChkClassifiesEveryInput :
    State.reset.Live ∧
    [0xAA#8, 0x02#8, 0x00#8].length < 4 ∧
    (0 < [0xE5#8].length ∧ 0x55#8 ≠ 0xAA#8) ∧
    (0 < [0xE5#8].length ∧ [0xE5#8].length < (0x01#8 : Byte).toNat + 1) ∧
    (([] : List Byte).length = (0x00#8 : Byte).toNat ∧ 0xDB#8 ≠ crc8 [0xAA#8, 0x01#8, 0x00#8]) ∧
    ([0x98#8].length = (0x01#8 : Byte).toNat ∧ 0x15#8 = crc8 [0xAA#8, 0x10#8, 0x01#8, 0x98#8]) := by decide +kernel
theorem witness_CheckOfEncodedFrameSucceeds :
    State.reset.Live ∧ ([] : List Byte).length ≤ 255 ∧ (List.replicate 255 0xAA#8).length ≤ 255 := by
  rw [List.length_replicate]; decide
theorem witness_AdvisoryBitAgreesWithCheck :
    ([] : List Byte).length ≤ 255 ∧ (List.replicate 255 0xAA#8).length ≤ 255 := by
  rw [List.length_replicate]; decide
/-- Frames of V31 and V25: bit 0 of byte 0; bit 7 of the kind and of the checksum byte; the length byte raised by bit 2 and
lowered by bit 0; and the lowering that CHK accepts. -/
theorem witness_SingleBitErrorOutcomes :
    State.reset.Live ∧ [0x01#8, 0x02#8, 0x03#8].length ≤ 255 ∧ 0 < 8 ∧ 7 < 8 ∧ 6 < [0x01#8, 0x02#8, 0x03#8].length + 4 ∧
    (∃ g, g = (frameOf 0x10#8 [0x01#8, 0x02#8, 0x03#8]).set 2
        ((frameOf 0x10#8 [0x01#8, 0x02#8, 0x03#8]).getD 2 0x00#8 ^^^ (1#8 <<< 2)) ∧ 3 < (g.getD 2 0x00#8).toNat) ∧
    (∃ g, g = (frameOf 0x10#8 [0x01#8, 0x02#8, 0x03#8]).set 2
        ((frameOf 0x10#8 [0x01#8, 0x02#8, 0x03#8]).getD 2 0x00#8 ^^^ (1#8 <<< 0)) ∧ (g.getD 2 0x00#8).toNat < 3) ∧
    (checkFrame ((frameOf 0x10#8 [0x98#8]).set 2 ((frameOf 0x10#8 [0x98#8]).getD 2 0x00#8 ^^^ (1#8 <<< 0)))).1 = .ok :=
  ⟨by decide, by decide, by decide, by decide, by decide, ⟨_, rfl, by decide +kernel⟩, ⟨_, rfl, by decide +kernel⟩,
    by decide +kernel⟩
theorem witness_TransmitOffersOnceAndReportsShortWrites :
    (∃ f, encodeFrame 0x02#8 [] = .ok f ∧ f = [0xAA#8, 0x02#8, 0x00#8, 0xE5#8]) ∧ [1#8, 2#8, 1#8, 1#8, 1#8].length ≤ 5 :=
  ⟨⟨_, rfl, by decide +kernel⟩, by decide⟩
theorem witness_DrawsAdmitEveryChoice : 0 ≤ 4 ∧ 4 ≤ 4 ∧ 0 ≤ 0 := by decide
theorem witness_StartRegistersTheConsumer :
    (withInputs false 4).Live ∧ (withInputs false 4).sampleOpen = false ∧
    (withInputs true 0).Live ∧ (withInputs true 0).sampleOpen = true ∧
    (withInputs true 4).Live ∧ (withInputs true 4).openIn = true :: [] ∧ (withInputs true 4).acceptIn = 4 :: [] := by decide
theorem witness_StopClearsTheConsumer : (withInputs true 3).Live ∧ (withInputs true 4).Live := by decide
theorem witness_ReconfClearsThenSendsMappedSettings :
    (withInputs true 9).Live ∧ mapSettings 9600#32 6#8 2#8 0#8 0#8 = .error .unmappedSetting ∧
    mapSettings 9600#32 8#8 1#8 0#8 0#8 = .error .unmappedSetting ∧
    mapSettings 9600#32 8#8 2#8 3#8 0#8 = .error .unmappedSetting ∧
    mapSettings 9600#32 8#8 2#8 0#8 2#8 = .error .unmappedSetting ∧
    mapSettings 19200#32 7#8 4#8 1#8 1#8 = .ok [2#8, 1#8, 3#8, 2#8, 2#8] ∧ (withInputs true 9).acceptIn = 9 :: [] :=
  ⟨by decide, rfl, rfl, rfl, rfl, rfl, rfl⟩
theorem witness_SettingsMapByTheTables :
    (∃ codes, mapSettings 9600#32 8#8 3#8 2#8 0#8 = .ok codes) ∧ ∀ codes, mapSettings 9600#32 9#8 2#8 0#8 0#8 ≠ .ok codes :=
  ⟨⟨_, rfl⟩, fun _ h => nomatch h⟩
theorem witness_SendOffersTheGivenBytes : (withInputs true 2).Live ∧ (withInputs true 2).acceptIn = 2 :: [] := by decide
theorem witness_TickSnapshotsTheCounter : { State.reset with fcnt := 3#32 }.Live := by decide
theorem witness_RdModeReadsModeAndTag :
    { State.reset with mode := .stopped }.Live ∧ { State.reset with mode := .stopped }.Inv ∧
    { State.reset with mode := .stopped }.mode ≠ .streaming ∧ (streamingWith []).Live ∧ powerUp.fault = none := by decide
theorem witness_CounterReadsAreLittleEndian :
    { State.reset with fcnt := 258#32 }.Live ∧ { State.reset with fcnt := 258#32 }.fcnt = 258#32 ∧
    { State.reset with fcnt := 1#32 }.Live ∧ { State.reset with fcnt := 1#32 }.fcnt = 1#32 ∧
    { streamingWith [0xAA#8, 0x02#8, 0x00#8] with fcnt := 0xFFFFFFFF#32 }.Live ∧
    { streamingWith [0xAA#8, 0x02#8, 0x00#8] with fcnt := 0xFFFFFFFF#32 }.mode = .streaming ∧
    { streamingWith [0xAA#8, 0x02#8, 0x00#8] with fcnt := 0xFFFFFFFF#32 }.rxbuf = [0xAA#8, 0x02#8, 0x00#8] := by decide
theorem witness_RdRxlenReadsTheLength :
    (streamingWith []).Live ∧ (streamingWith []).mode = .streaming ∧ (streamingWith []).rxbuf = [] ∧
    (streamingWith fullestBuffer).Inv ∧ (streamingWith fullestBuffer).rxlen = 258 := by decide +kernel
theorem witness_ReservedOpcodesRespondIllegal : State.reset.Live ∧ decode .events [0xFE#8] = .ok (.reserved 0xFE#8) [] := by
  decide
theorem witness_SendCmdEncodesThenSends :
    (withInputs true 4).Live ∧ ([] : List Byte).length ≤ 255 ∧ (List.replicate 255 0x00#8).length ≤ 255 ∧
    255 < (List.replicate 256 0x00#8).length := by
  rw [List.length_replicate, List.length_replicate]; decide
theorem witness_OnlyControlEventsWriteModeAndTag :
    (∃ t, exec (.rxByte 0xAA#8) (streamingWith []) = .next t) ∧ (∀ tag, Instr.rxByte 0xAA#8 ≠ .start tag) ∧
    Instr.rxByte 0xAA#8 ≠ .stop ∧ (∀ b d st p f, Instr.rxByte 0xAA#8 ≠ .reconf b d st p f) ∧ Instr.rxByte 0xAA#8 ≠ .rst :=
  ⟨⟨_, rfl⟩, nofun, nofun, nofun, nofun⟩
theorem witness_RegistersHaveOnlyTheirWriters :
    (∃ t, exec .stop (streamingWith [0xAA#8]) = .next t) ∧ Instr.stop ≠ .rst ∧ (∀ b, Instr.stop ≠ .crcUpd b) ∧
    Instr.stop ≠ .crcClr ∧ Instr.stop ≠ .tick ∧ Instr.stop.channel ≠ .wireIn ∧ (∀ b, Instr.stop ≠ .rxByte b) :=
  ⟨⟨_, rfl⟩, nofun, nofun, nofun, nofun, nofun, nofun⟩
theorem witness_HistoryOnlyGrows : ∃ t, exec .stop State.reset = .next t := ⟨_, rfl⟩
theorem witness_CommandsRespondExactlyOnce :
    State.reset.Live ∧ isCommand .rdMode = true ∧ isCommand (.reserved 0x05#8) = true ∧ isCommand (.rxByte 0xDA#8) = false ∧
    ∃ t, exec (.rxByte 0xDA#8) (streamingWith [0xAA#8, 0x01#8, 0x00#8]) = .next t :=
  ⟨by decide, by decide, by decide, by decide, _, rfl⟩
theorem witness_OtherUnitsIgnoreTheCrcRegister :
    Instr.enc 0x02#8 [] ≠ .crcClr ∧ (∀ b, Instr.enc 0x02#8 [] ≠ .crcUpd b) ∧ Instr.enc 0x02#8 [] ≠ .crcRd ∧
    Instr.enc 0x02#8 [] ≠ .rst ∧ ∃ t, exec (.enc 0x02#8 []) State.reset = .next t :=
  ⟨nofun, nofun, nofun, nofun, _, rfl⟩
theorem witness_NoInstructionReadsTheHistory :
    ∃ t, exec .rdMode { State.reset with history := [.resp 0x31#8 .ok []] } = .next t := ⟨_, rfl⟩
theorem witness_BufferPrimitivesFollowTheirRules :
    (streamingWith (0x00#8 :: fullestBuffer)).rxlen = 259 ∧ (streamingWith fullestBuffer).rxlen ≠ 259 ∧
    (streamingWith []).rxlen < 1 ∧ 3 ≤ (streamingWith [0xAA#8, 0x01#8, 0x00#8]).rxlen ∧ 0 ≤ (streamingWith []).rxlen := by
  decide +kernel
theorem witness_BufferIsFirstInFirstOut :
    ∃ t, runFifo [.append 0x01#8, .append 0x02#8, .consume 2, .append 0x03#8] (streamingWith [0x00#8]) =
      .ok ([0x00#8, 0x01#8], t) ∧ t.rxbuf = [0x02#8, 0x03#8] := ⟨_, rfl, rfl⟩
theorem witness_RxByteRunsTheExtractionLoop :
    (State.reset.Live ∧ State.reset.mode ≠ .streaming) ∧
    ((streamingWith (0x00#8 :: fullestBuffer)).Live ∧ (streamingWith (0x00#8 :: fullestBuffer)).mode = .streaming ∧
      (streamingWith (0x00#8 :: fullestBuffer)).rxlen = 259) ∧
    ((streamingWith fullestBuffer).Live ∧ (streamingWith fullestBuffer).mode = .streaming ∧
      (streamingWith fullestBuffer).rxlen ≠ 259 ∧
      (extractAll ((streamingWith fullestBuffer).rxlen + 1) ((streamingWith fullestBuffer).rxbuf ++ [0xDF#8])).1.length = 1) := by
  decide +kernel
/-- One buffer per case: 2 bytes, a drop at 3, a header that waits, and the last byte of a frame of 259. -/
theorem witness_OneActionPerReceivedByte :
    (∀ buf ∈ [[0x55#8], [0x55#8, 0x55#8], [0xAA#8, 0x02#8], [0xAA#8, 0x02#8, 0x00#8], fullestBuffer],
      (streamingWith buf).Live ∧ (streamingWith buf).mode = .streaming ∧ (streamingWith buf).Inv) ∧
    ([0x55#8] ++ [0x55#8]).length < 3 ∧
    (3 ≤ ([0x55#8, 0x55#8] ++ [0xAA#8]).length ∧ ([0x55#8, 0x55#8] ++ [0xAA#8]).getD 0 0x00#8 ≠ 0xAA#8) ∧
    (([0xAA#8, 0x02#8] ++ [0x00#8]).getD 0 0x00#8 = 0xAA#8 ∧
      ([0xAA#8, 0x02#8] ++ [0x00#8]).length < 4 + (([0xAA#8, 0x02#8] ++ [0x00#8]).getD 2 0x00#8).toNat) ∧
    ((fullestBuffer ++ [0xDF#8]).getD 0 0x00#8 = 0xAA#8 ∧
      4 + ((fullestBuffer ++ [0xDF#8]).getD 2 0x00#8).toNat ≤ (fullestBuffer ++ [0xDF#8]).length) := by decide +kernel
theorem witness_EveryStepKeepsTheInvariants :
    ∃ s t : State, s.Inv ∧ step s = .next t ∧ s.rxbuf = [0xAA#8, 0x02#8, 0x00#8] ∧ t.rxbuf = [] :=
  ⟨{ streamingWith [0xAA#8, 0x02#8, 0x00#8] with trace := [0x30#8, 0xE5#8] }, _, by decide +kernel, rfl, rfl, rfl⟩
theorem witness_ChunkedDeliveryMatchesTheWholeChunkLoop :
    (streamingWith fullestBuffer).Live ∧ (streamingWith fullestBuffer).mode = .streaming ∧
    (streamingWith fullestBuffer).Inv := by decide +kernel
theorem witness_GarbageBeforeAFrameIsDropped :
    (streamingWith []).Live ∧ (streamingWith []).mode = .streaming ∧ (streamingWith []).rxbuf = [] ∧
    0xAA#8 ∉ [0xFF#8, 0xFF#8] ∧ 0xAA#8 ∉ ([] : List Byte) ∧ (List.replicate 255 0xAA#8).length ≤ 255 := by
  rw [List.length_replicate]; decide
theorem witness_SourceScenarioByteByByte :
    ∀ buf ∈ [[], [0xFF#8], [0xFF#8, 0xFF#8], [0xFF#8, 0xAA#8], [0xAA#8, 0x02#8], [0xAA#8, 0x02#8, 0x00#8]],
      (streamingWith buf).Live ∧ (streamingWith buf).mode = .streaming ∧ (streamingWith buf).rxbuf = buf := by decide
/-- P4's stale header `AA 01 02 AA`. -/
theorem witness_StaleHeaderTakesTheNextBytes :
    ∃ s t : State, s.Live ∧ s.mode = .streaming ∧ s.rxbuf = 0xAA#8 :: 0x01#8 :: 0x02#8 :: [0xAA#8] ∧
      [0xAA#8].length ≤ (0x02#8 : Byte).toNat ∧ ([0xAA#8] ++ [0xAA#8, 0x01#8]).length = (0x02#8 : Byte).toNat + 1 ∧
      runAll [.stop, .start 0x02#8] s = .next t ∧ t.mode = .streaming :=
  ⟨{ streamingWith [0xAA#8, 0x01#8, 0x02#8, 0xAA#8] with openIn := [true], acceptIn := [4, 4] }, _,
    by decide, rfl, rfl, by decide, by decide, rfl, rfl⟩
theorem witness_DispatchedFramesAreLengthDelimited :
    ∃ t, exec (.rxByte 0xDB#8) (streamingWith [0xAA#8, 0x01#8, 0x00#8]) = .next t ∧
      .frameOut 0x05#8 [0xAA#8, 0x01#8, 0x00#8, 0xDB#8] false ∈
        t.history.drop (streamingWith [0xAA#8, 0x01#8, 0x00#8]).history.length := ⟨_, rfl, by decide +kernel⟩
theorem witness_CommandFramesAreOfferedToTheTransport : (withInputs true 4).Live := by decide
theorem witness_ResponseFramesAreReceived :
    (0x04#8, Instr.respMalformed [0xAA#8] 0x42#8) ∈ [(0x01#8, Instr.respAccepted [0xAA#8] 0x42#8),
      (0x02#8, .respRejected [0xAA#8] 0x42#8), (0x03#8, .respChecksumFailed [0xAA#8] 0x42#8),
      (0x04#8, .respMalformed [0xAA#8] 0x42#8)] ∧
    State.reset.Live ∧ State.reset.mode ≠ .streaming ∧ (streamingWith []).Live ∧ (streamingWith []).mode = .streaming ∧
    (streamingWith []).rxbuf = [] ∧ [0xAA#8].length ≤ 255 := by decide
theorem witness_DecodeOfEncodeIsTheInstruction :
    WellFormed (.enc 0xFF#8 (List.replicate 65535 0x00#8)) = true ∧ WellFormed (.respMalformed (List.replicate 255 0#8) 0#8) = true ∧
    WellFormed (.reserved 0xFE#8) = true ∧ WellFormed (.frameReconfigureUart 0xFF#8 2#8 3#8 3#8 2#8) = true := by
  refine ⟨?_, ?_, by decide, by decide⟩
  · rw [WellFormed, countFits, List.length_replicate]; rfl
  · rw [WellFormed, payloadFits, List.length_replicate]; rfl
theorem witness_EncodeOfDecodeIsTheBytes :
    Channel.events ≠ .wireIn ∧ decode .events [0x20#8, 0x07#8] = .ok (.start 0x07#8) [] ∧
    decode .wireIn [0xAA#8, 0x01#8, 0x00#8, 0x77#8] = .ok (.respAccepted [] 0x77#8) [] ∧
    decode .wireIn [0x01#8, 0x02#8] = .ok (.rxByte 0x01#8) [0x02#8] := by decide
/-- V60's truncated CHK, and an event cut after its opcode. -/
theorem witness_TruncatedTracesAreRefused :
    ∃ (i : Instr) (s : State), WellFormed i = true ∧ i.channel = .events ∧ 0 < 5 ∧ 5 < (encode i).length ∧ 0 < 1 ∧
      s.channel = .events ∧ s.trace = (encode i).take 5 ∧ s.trace = [0x11#8, 0x05#8, 0x00#8, 0xAA#8, 0x02#8] :=
  ⟨.chk [0xAA#8, 0x02#8, 0x00#8, 0xE5#8, 0x77#8],
    { State.reset with trace := [0x11#8, 0x05#8, 0x00#8, 0xAA#8, 0x02#8] }, by decide, rfl, by decide, by decide, by decide,
    rfl, rfl, rfl⟩
theorem witness_StepRunsTheDecodedInstruction :
    ∃ s : State, decode s.channel s.trace = .ok .rdMode [0x41#8] ∧ WellFormed .rdMode = true ∧
      s.channel = Instr.rdMode.channel ∧ s.trace = encode .rdMode ++ [0x41#8] :=
  ⟨{ State.reset with trace := [0x40#8, 0x41#8] }, rfl, rfl, rfl, rfl⟩
theorem witness_StepWithoutAnInstruction :
    State.reset.trace = [] ∧
    ∃ s : State, decode s.channel s.trace = .reject .notCommandFrame ∧
      refusalOf (step s) = some .notCommandFrame :=
  ⟨rfl, { State.reset with channel := .wireOut, trace := [0xAA#8, 0x02#8, 0x00#8, 0xE4#8] }, by decide +kernel, by decide +kernel⟩

end Sys2Proof.Tests
end

section
/-! Decoding gives back what was encoded (30_encoding.md R50, R56, R57), channel by channel. -/

namespace Sys2Proof

theorem decodeEnc_encodeCounted (kind : Byte) {p : List Byte} (h : p.length ≤ 65535) (rest : List Byte) :
    decodeEnc (kind :: (encodeCounted p ++ rest)) = .ok (.enc kind p) rest :=
  decodeCounted_encodeCounted h rest (.enc kind)

theorem decodeReconf_le32 (baud : Word) (d st p f : Byte) (rest : List Byte) :
    decodeReconf (le32 baud ++ d :: st :: p :: f :: rest) = .ok (.reconf baud d st p f) rest := by
  simp only [le32, List.cons_append, List.nil_append, decodeReconf, wordOfBytes_le32]

/-- A command frame with its right checksum is read back from the outgoing wire. -/
theorem decodeWireOut_frameOf (k : Byte) {p : List Byte} {i : Instr} (hp : p.length ≤ 255)
    (hi : commandFrame k p = some i) (rest : List Byte) : decodeWireOut (frameOf k p ++ rest) = .ok i rest := by
  have hs : splitFrame (frameOf k p ++ rest) = some (k, p, crc8 (frameBody k p), rest) :=
    splitFrame_frameWith k _ hp rest
  unfold decodeWireOut
  split
  · next h => simp [h, splitFrame] at hs
  · simp [hs, hi]

/-- A response frame is read back from the incoming wire, whatever its checksum byte. -/
theorem decodeWireIn_frameWith {k c : Byte} {p : List Byte} {i : Instr} (hp : p.length ≤ 255)
    (hi : responseFrame k p c = some i) (rest : List Byte) : decodeWireIn (frameWith k p c ++ rest) = .ok i rest := by
  have hs : splitFrame (frameWith k p c ++ rest) = some (k, p, c, rest) := splitFrame_frameWith k c hp rest
  unfold decodeWireIn
  split
  · next h => simp [h, splitFrame] at hs
  · next h => rw [h] at hs; simp [hs, hi]

theorem countFits_iff (bs : List Byte) : countFits bs = true ↔ bs.length ≤ 65535 := decide_eq_true_iff

theorem payloadFits_iff (p : List Byte) : payloadFits p = true ↔ p.length ≤ 255 := decide_eq_true_iff

/-- The round trip, whatever bytes follow. -/
theorem decode_encode {i : Instr} (h : WellFormed i = true) (rest : List Byte) :
    decode i.channel (encode i ++ rest) = .ok i rest := by
  cases i with
  | enc kind p => exact decodeEnc_encodeCounted kind ((countFits_iff p).mp h) rest
  | chk bs => exact decodeCounted_encodeCounted ((countFits_iff bs).mp h) rest .chk
  | send bs => exact decodeCounted_encodeCounted ((countFits_iff bs).mp h) rest .send
  | reconf baud d st p f => exact decodeReconf_le32 baud d st p f rest
  | reserved op => exact decodeOperands_reserved h rest
  | frameGetData => exact decodeWireOut_frameOf Config.cmdGetData (p := []) (by decide) rfl rest
  | frameStop => exact decodeWireOut_frameOf Config.cmdStop (p := []) (by decide) rfl rest
  | frameReconfigureUart c0 c1 c2 c3 c4 =>
    have hc : codesMapped c1 c2 c3 c4 = true := h
    exact decodeWireOut_frameOf Config.cmdReconf (p := [c0, c1, c2, c3, c4]) (by simp) (by simp [commandFrame, hc]) rest
  | respAccepted p c => exact decodeWireIn_frameWith ((payloadFits_iff p).mp h) rfl rest
  | respRejected p c => exact decodeWireIn_frameWith ((payloadFits_iff p).mp h) rfl rest
  | respChecksumFailed p c => exact decodeWireIn_frameWith ((payloadFits_iff p).mp h) rfl rest
  | respMalformed p c => exact decodeWireIn_frameWith ((payloadFits_iff p).mp h) rfl rest
  | crcClr | crcUpd | crcRd | start | stop | rxByte | tick | rdMode | rdFcnt | rdFreq | rdRxlen | rst => rfl

end Sys2Proof
end

section
/-! The environment's draws (10_state.md R22, 42_engine.md R100), and what a step runs (00_scope.md R8). -/

namespace Sys2Proof.Machine

/-- A listed count that does not exceed the number offered is the count drawn. -/
theorem State.drawAccept_listed (s : State) {n k : Nat} (ks : List Nat) (h : k ≤ n) :
    { s with acceptIn := k :: ks }.drawAccept n = k :=
  Nat.min_eq_left h

@[simp] theorem State.sampleOpen_listed (s : State) (b : Bool) (bs : List Bool) :
    { s with openIn := b :: bs }.sampleOpen = b := rfl

/-- Drawing a count writes the environment's own fields only. -/
theorem State.afterAccept_frame (s : State) :
    s.afterAccept = { s with acceptIn := s.acceptIn.tail, drawn := s.afterAccept.drawn } := by
  rw [← s.afterAccept_acceptIn]
  unfold State.afterAccept
  split <;> rfl

/-- Sampling TRANSPORT_OPEN writes the environment's own fields only. -/
theorem State.afterOpen_frame (s : State) :
    s.afterOpen = { s with openIn := s.openIn.tail, drawn := s.afterOpen.drawn } := by
  rw [← s.afterOpen_openIn]
  unfold State.afterOpen
  split <;> rfl

/-- Settles O22: the cap bounds every draw, and the listed inputs reach every admitted choice. -/
theorem drawsAdmitEveryChoice : Obligations.DrawsAdmitEveryChoice :=
  ⟨State.drawAccept_le, fun s _ _ ks h => s.drawAccept_listed ks h, State.sampleOpen_listed, State.afterAccept_frame,
    State.afterOpen_frame⟩

/-- A step executes the decoded instruction with its bytes taken off the trace. -/
theorem step_of_decode {s : State} {i : Instr} {rest : List Byte} (h : decode s.channel s.trace = .ok i rest) :
    step s = exec i { s with trace := rest } := by
  simp only [step, h]

/-- Settles O57: the second part is the first at the round trip `decode_encode`. -/
theorem stepRunsTheDecodedInstruction : Obligations.StepRunsTheDecodedInstruction := by
  refine ⟨fun s i rest h => step_of_decode h, fun s i rest hwf hch htr => ?_⟩
  have hdec : decode s.channel s.trace = .ok i rest := by rw [hch, htr, decode_encode hwf]
  exact step_of_decode hdec

end Sys2Proof.Machine
end

section
/-! What every instruction does to the registers (10_state.md R14): the state table as a relation, which every arm of `exec`
meets, and the invariants of R24 read off it. -/

namespace Sys2Proof.Machine

/-! ### The registers -/

/-- The registers of R14 and RESET_SEEN, without FAULT, the history and the environment's inputs. -/
structure Registers where
  crc : Byte
  mode : Mode
  tag : Byte
  fcnt : Word
  freq : Word
  rxbuf : Memory
  resetSeen : Bool

def State.registers (s : State) : Registers := ⟨s.crc, s.mode, s.tag, s.fcnt, s.freq, s.rxbuf, s.resetSeen⟩

@[simp] theorem State.recordFault_registers (s : State) (r : Fault) : (s.recordFault r).registers = s.registers := rfl

@[simp] theorem State.emit_registers (s : State) (r : Record) : (s.emit r).registers = s.registers := rfl

@[simp] theorem State.respond_registers (s : State) (op : Byte) (st : Status) (data : List Byte) :
    (s.respond op st data).registers = s.registers := rfl

@[simp] theorem State.afterOpen_registers (s : State) : s.afterOpen.registers = s.registers := by
  rw [s.afterOpen_frame]; rfl

@[simp] theorem State.afterAccept_registers (s : State) : s.afterAccept.registers = s.registers := by
  rw [s.afterAccept_frame]; rfl

@[simp] theorem State.sendFrame_keeps_registers (s : State) (kind : Byte) (p : List Byte) :
    (s.sendFrame kind p).2.registers = s.registers := by
  rw [s.sendFrame_registers]; rfl

@[simp] theorem State.sendAndRespond_registers (s : State) (op kind : Byte) (p : List Byte) :
    (s.sendAndRespond op kind p).registers = s.registers := by
  simp [State.sendAndRespond]

/-! ### Receiving -/

/-- The source's loop, run with enough fuel, leaves no complete frame and no three bytes without a marker in front. -/
theorem extractAll_framing {fuel : Nat} {buf : List Byte} (h : buf.length ≤ fuel) : Framing (extractAll fuel buf).2 := by
  induction fuel generalizing buf with
  | zero =>
    have hb : buf.length < 3 := by omega
    exact .inl hb
  | succ n ih =>
    unfold extractAll
    split
    · next hshort => exact .inl hshort
    split
    · exact ih (by simp; omega)
    · next hm =>
      split
      · next hwait => exact .inr ⟨Classical.not_not.mp hm, hwait⟩
      · exact ih (by simp [frameLength]; omega)

/-- Received bytes write RXBUF and FCNT alone, and keep the framing of R24(c). -/
def Registers.Received (r r' : Registers) : Prop :=
  ∃ buf n, r' = { r with rxbuf := buf, fcnt := n } ∧ (Framing r.rxbuf → Framing buf)

theorem Registers.Received.refl (r : Registers) : r.Received r := ⟨r.rxbuf, r.fcnt, rfl, id⟩

theorem Registers.Received.trans {r₁ r₂ r₃ : Registers} (h : r₁.Received r₂) (h' : r₂.Received r₃) : r₁.Received r₃ := by
  obtain ⟨_, _, rfl, hf⟩ := h
  obtain ⟨buf, n, rfl, hf'⟩ := h'
  exact ⟨buf, n, rfl, hf' ∘ hf⟩

theorem State.receive_received (s : State) (b : Byte) : s.registers.Received (s.receive b).registers := by
  by_cases hm : s.mode = .streaming
  · by_cases hl : s.rxlen = 259
    · rw [State.receive_overflow hm hl]
      exact .refl _
    · rw [State.receive_streaming hm hl, State.rxLoop_eq_extractAll]
      have hfuel : (s.rxbuf ++ [b]).length ≤ s.rxlen + 1 := by simp [State.rxlen]
      exact ⟨_, _, rfl, fun _ => extractAll_framing hfuel⟩
  · rw [State.receive_discards hm]
    exact .refl _

theorem State.receiveAll_received (s : State) (bs : List Byte) : s.registers.Received (s.receiveAll bs).registers := by
  induction bs generalizing s with
  | nil => exact .refl _
  | cons b bs ih =>
    refine .trans ?_ (ih _)
    rcases s.atEvent_cases fun s => s.receive b with ⟨_, e⟩ | ⟨_, _, e⟩ | ⟨_, e⟩ <;> rw [e]
    · exact .refl _
    · exact .refl _
    · exact s.receive_received b

/-! ### The state table -/

/-- R14's state table: what an instruction may write. A faulted, a discarded and a merely reporting event write nothing. -/
inductive RegisterWrite : Instr → Registers → Registers → Prop
  | nothing (i : Instr) (r : Registers) : RegisterWrite i r r
  | crcClr (r : Registers) (c : Byte) : RegisterWrite .crcClr r { r with crc := c }
  | crcUpd (b : Byte) (r : Registers) (c : Byte) : RegisterWrite (.crcUpd b) r { r with crc := c }
  | start (tag : Byte) (r : Registers) : RegisterWrite (.start tag) r { r with mode := .streaming, tag := tag }
  | stop (r : Registers) : RegisterWrite .stop r { r with mode := .stopped, tag := 0x00#8 }
  | reconf (baud : Word) (d st p f : Byte) (r : Registers) :
      RegisterWrite (.reconf baud d st p f) r { r with mode := .idle, tag := 0x00#8 }
  | tick (r : Registers) : RegisterWrite .tick r { r with freq := r.fcnt, fcnt := 0#32 }
  | rst (r : Registers) : RegisterWrite .rst r State.reset.registers
  | rxByte (b : Byte) {r r' : Registers} (h : r.Received r') : RegisterWrite (.rxByte b) r r'
  | response {i : Instr} (hi : i.channel = .wireIn) {r r' : Registers} (h : r.Received r') : RegisterWrite i r r'

/-- The gate adds no write. -/
theorem State.atEvent_write {i : Instr} {s : State} {e : State → State}
    (he : RegisterWrite i s.registers (e s).registers) : RegisterWrite i s.registers (s.atEvent e).registers := by
  rcases s.atEvent_cases e with ⟨_, h⟩ | ⟨_, _, h⟩ | ⟨_, h⟩ <;> rw [h]
  · exact .nothing i _
  · exact .nothing i _
  · exact he

/-- An event whose effect keeps the registers writes nothing. -/
theorem State.atEvent_keeps {i : Instr} {s : State} {e : State → State} (he : (e s).registers = s.registers) :
    RegisterWrite i s.registers (s.atEvent e).registers :=
  State.atEvent_write (he ▸ .nothing i _)

/-- A response frame is received byte by byte. -/
theorem exec_wireIn {i : Instr} (h : i.channel = .wireIn) (s : State) : exec i s = .next (s.receiveAll (encode i)) := by
  cases i with
  | respAccepted | respRejected | respChecksumFailed | respMalformed => rfl
  | _ => cases h

theorem exec_rst_live {s : State} (h : s.fault = none) : exec .rst s = .next s.resetRegisters := by
  simp [exec, execRst, h]

theorem exec_rst_faulted {s : State} (h : s.fault ≠ none) : exec .rst s = .next s := by
  simp [exec, execRst, h, Option.isSome_iff_ne_none]

/-- Every instruction answers a next state, in which it has written what the state table allows. -/
theorem exec_write (i : Instr) (s : State) : ∃ t, exec i s = .next t ∧ RegisterWrite i s.registers t.registers := by
  cases i with
  | crcClr => exact ⟨_, rfl, State.atEvent_write (.crcClr _ _)⟩
  | crcUpd b => exact ⟨_, rfl, State.atEvent_write (.crcUpd b _ _)⟩
  | tick => exact ⟨_, rfl, State.atEvent_write (.tick _)⟩
  | rxByte b => exact ⟨_, rfl, State.atEvent_write (.rxByte b (s.receive_received b))⟩
  | start tag =>
    refine ⟨_, rfl, State.atEvent_write ?_⟩
    split
    · rw [State.sendAndRespond_registers]
      have hw : (s.afterOpen.setConsumer .streaming tag).registers = { s.registers with mode := .streaming, tag := tag } := by
        rw [s.afterOpen_frame]; rfl
      rw [hw]
      exact .start tag _
    · simpa using .nothing _ _
  | stop =>
    refine ⟨_, rfl, State.atEvent_write ?_⟩
    rw [State.sendAndRespond_registers]
    exact .stop _
  | reconf baud d st p f =>
    refine ⟨_, rfl, State.atEvent_write ?_⟩
    split
    · exact .reconf baud d st p f _
    · rw [State.sendAndRespond_registers]
      exact .reconf baud d st p f _
  | rst =>
    by_cases hf : s.fault = none
    · exact ⟨_, exec_rst_live hf, .rst _⟩
    · exact ⟨_, exec_rst_faulted hf, .nothing _ _⟩
  | enc kind p =>
    refine ⟨_, rfl, State.atEvent_keeps ?_⟩
    split <;> rfl
  | send bs => exact ⟨_, rfl, State.atEvent_keeps (by simp)⟩
  | frameGetData | frameStop | frameReconfigureUart => exact ⟨_, rfl, State.atEvent_keeps (by simp)⟩
  | crcRd | chk | rdMode | rdFcnt | rdFreq | rdRxlen | reserved => exact ⟨_, rfl, State.atEvent_keeps rfl⟩
  | respAccepted | respRejected | respChecksumFailed | respMalformed =>
    exact ⟨_, exec_wireIn rfl s, .response rfl (s.receiveAll_received _)⟩

theorem RegisterWrite.of_exec {i : Instr} {s t : State} (h : exec i s = .next t) :
    RegisterWrite i s.registers t.registers := by
  obtain ⟨t', h', hw⟩ := exec_write i s
  cases h.symm.trans h'
  exact hw

/-! ### What the table says of each register -/

section
variable {i : Instr} {r r' : Registers} (w : RegisterWrite i r r')
include w

theorem RegisterWrite.mode_tag (hstart : ∀ tag, i ≠ .start tag) (hstop : i ≠ .stop)
    (hreconf : ∀ b d st p f, i ≠ .reconf b d st p f) (hrst : i ≠ .rst) : r'.mode = r.mode ∧ r'.tag = r.tag := by
  cases w with
  | nothing | crcClr | crcUpd | tick => exact ⟨rfl, rfl⟩
  | start tag => exact absurd rfl (hstart tag)
  | stop => exact absurd rfl hstop
  | reconf baud d st p f => exact absurd rfl (hreconf baud d st p f)
  | rst => exact absurd rfl hrst
  | rxByte _ h | response _ h => obtain ⟨_, _, rfl, _⟩ := h; exact ⟨rfl, rfl⟩

theorem RegisterWrite.resetSeen (hrst : i ≠ .rst) : r'.resetSeen = r.resetSeen := by
  cases w with
  | nothing | crcClr | crcUpd | start | stop | reconf | tick => rfl
  | rst => exact absurd rfl hrst
  | rxByte _ h | response _ h => obtain ⟨_, _, rfl, _⟩ := h; rfl

theorem RegisterWrite.crc (hupd : ∀ b, i ≠ .crcUpd b) (hclr : i ≠ .crcClr) (hrst : i ≠ .rst) : r'.crc = r.crc := by
  cases w with
  | nothing | start | stop | reconf | tick => rfl
  | crcClr => exact absurd rfl hclr
  | crcUpd b => exact absurd rfl (hupd b)
  | rst => exact absurd rfl hrst
  | rxByte _ h | response _ h => obtain ⟨_, _, rfl, _⟩ := h; rfl

theorem RegisterWrite.freq (htick : i ≠ .tick) (hrst : i ≠ .rst) : r'.freq = r.freq := by
  cases w with
  | nothing | crcClr | crcUpd | start | stop | reconf => rfl
  | tick => exact absurd rfl htick
  | rst => exact absurd rfl hrst
  | rxByte _ h | response _ h => obtain ⟨_, _, rfl, _⟩ := h; rfl

theorem RegisterWrite.rxbuf_fcnt (hch : i.channel ≠ .wireIn) (hrx : ∀ b, i ≠ .rxByte b) (hrst : i ≠ .rst) :
    r'.rxbuf = r.rxbuf ∧ (i ≠ .tick → r'.fcnt = r.fcnt) := by
  cases w with
  | nothing | crcClr | crcUpd | start | stop | reconf => exact ⟨rfl, fun _ => rfl⟩
  | tick => exact ⟨rfl, fun h => absurd rfl h⟩
  | rst => exact absurd rfl hrst
  | rxByte b => exact absurd rfl (hrx b)
  | response hi => exact absurd hi hch

end

/-- Settles O34, by the state table. -/
theorem onlyControlEventsWriteModeAndTag : Obligations.OnlyControlEventsWriteModeAndTag :=
  fun _ _ _ h => (RegisterWrite.of_exec h).mode_tag

/-- Settles O35, by the state table. -/
theorem registersHaveOnlyTheirWriters : Obligations.RegistersHaveOnlyTheirWriters := by
  intro i s t h hrst
  have w := RegisterWrite.of_exec h
  exact ⟨w.resetSeen hrst, fun hupd hclr => w.crc hupd hclr hrst, fun htick => w.freq htick hrst,
    fun hch hrx => w.rxbuf_fcnt hch hrx hrst⟩

/-! ### The invariants -/

/-- The clauses (b) and (c) of R24; the other two follow from the encoding of MODE and from (c). -/
def Registers.Inv (r : Registers) : Prop := (r.mode ≠ .streaming → r.tag = 0x00#8) ∧ Framing r.rxbuf

theorem Mode.code_ne_three (m : Mode) : m.code ≠ 3#2 := by cases m <;> decide

/-- R24(d) from R24(c): an incomplete frame is shorter than the longest frame. -/
theorem Framing.length_le {buf : List Byte} (h : Framing buf) : buf.length ≤ 258 := by
  rcases h with hshort | ⟨_, hwait⟩
  · omega
  · have := (buf.getD 2 0#8).isLt
    unfold frameLength at hwait
    omega

theorem State.inv_iff (s : State) : s.Inv ↔ s.registers.Inv :=
  ⟨fun ⟨_, htag, hframing, _⟩ => ⟨htag, hframing⟩,
    fun ⟨htag, hframing⟩ => ⟨s.mode.code_ne_three, htag, hframing, hframing.length_le⟩⟩

theorem State.Inv.wf {s : State} (h : s.Inv) : Memory.wf s.rxbuf = true := by
  obtain ⟨_, _, _, hlen⟩ := h
  rw [Memory.wf_iff]
  omega

theorem Registers.Received.inv {r r' : Registers} (h : r.Received r') (hi : r.Inv) : r'.Inv := by
  obtain ⟨_, _, rfl, hframing⟩ := h
  exact ⟨hi.1, hframing hi.2⟩

theorem reset_inv : State.reset.registers.Inv := ⟨fun _ => rfl, .inl (by decide)⟩

/-- Every write the table allows keeps the invariants. -/
theorem RegisterWrite.inv {i : Instr} {r r' : Registers} (w : RegisterWrite i r r') (hi : r.Inv) : r'.Inv := by
  obtain ⟨htag, hframing⟩ := hi
  cases w with
  | nothing | crcClr | crcUpd | tick => exact ⟨htag, hframing⟩
  | start => exact ⟨fun hm => absurd rfl hm, hframing⟩
  | stop | reconf => exact ⟨fun _ => rfl, hframing⟩
  | rst => exact reset_inv
  | rxByte _ h | response _ h => exact h.inv ⟨htag, hframing⟩

/-- Everything a step that answers a next state can do: nothing, or one instruction taken off the trace. -/
theorem step_next_cases {s t : State} (h : step s = .next t) :
    t = s ∨ ∃ i rest, exec i { s with trace := rest } = .next t := by
  unfold step at h
  split at h
  · next i rest _ => exact .inr ⟨i, rest, h⟩
  · cases h; exact .inl rfl
  · cases h
  · cases h

/-- Settles O45: an idle step changes nothing, and an executed instruction writes what the state table allows. -/
theorem everyStepKeepsTheInvariants : Obligations.EveryStepKeepsTheInvariants := by
  intro s t hi h
  have ht : t.Inv := by
    rcases step_next_cases h with rfl | ⟨i, rest, hx⟩
    · exact hi
    · exact t.inv_iff.mpr ((RegisterWrite.of_exec hx).inv (s.inv_iff.mp hi))
  exact ⟨ht, ht.wf⟩

/-- Settles O44: the buffer is empty and the mode is Idle with tag 0. -/
theorem resetMeetsTheInvariants : Obligations.ResetMeetsTheInvariants :=
  have hi : State.reset.Inv := State.reset.inv_iff.mpr reset_inv
  ⟨hi, hi.wf⟩

end Sys2Proof.Machine
end

section
/-! RST at power-up, and the events before it (10_state.md R25, R26). -/

namespace Sys2Proof.Machine

/-- RST keeps the recorded fault and the history. -/
theorem exec_rst_keeps {s t : State} (h : exec .rst s = .next t) : t.fault = s.fault ∧ t.history = s.history := by
  by_cases hf : s.fault = none
  · cases (exec_rst_live hf).symm.trans h; exact ⟨rfl, rfl⟩
  · cases (exec_rst_faulted hf).symm.trans h; exact ⟨rfl, rfl⟩

/-- Settles O2: at power-up no fault is recorded, so RST writes every register. -/
theorem resetStateHoldsTheRuleValues : Obligations.ResetStateHoldsTheRuleValues := by
  refine ⟨by decide, fun s hp => ?_, fun s t h => exec_rst_keeps h⟩
  obtain ⟨_, hfault, hhistory⟩ := hp
  exact ⟨s.resetRegisters, exec_rst_live hfault, rfl, rfl, rfl, rfl, rfl, rfl, rfl, hfault, hhistory⟩

/-- Every event but RST, and every command frame, stands behind the gate. -/
theorem exec_gated {i : Instr} (hrst : i ≠ .rst) (hch : i.channel ≠ .wireIn) :
    ∃ e : State → State, ∀ s, exec i s = .next (s.atEvent e) := by
  cases i with
  | rst => exact absurd rfl hrst
  | respAccepted | respRejected | respChecksumFailed | respMalformed => exact absurd rfl hch
  | _ => exact ⟨_, fun _ => rfl⟩

/-- The first byte of a chunk records NotReset, and the bytes after it have no effect. -/
theorem State.receiveAll_beforeReset {s : State} (h : s.fault = none) (hr : s.resetSeen = false) {bs : List Byte}
    (hbs : bs ≠ []) : s.receiveAll bs = s.recordFault .notReset := by
  cases bs with
  | nil => exact absurd rfl hbs
  | cons b bs =>
    rw [State.receiveAll, State.atEvent_beforeReset h hr]
    exact State.receiveAll_faulted (by simp) bs

theorem encode_ne_nil (i : Instr) : encode i ≠ [] := by cases i <;> exact List.cons_ne_nil _ _

/-- Settles O3: the gate records NotReset, for a response frame at its first byte. -/
theorem eventBeforeResetFaults : Obligations.EventBeforeResetFaults := by
  intro i s hrst hf hr
  by_cases hch : i.channel = .wireIn
  · rw [exec_wireIn hch, State.receiveAll_beforeReset hf hr (encode_ne_nil i)]
    rfl
  · obtain ⟨e, he⟩ := exec_gated hrst hch
    rw [he, State.atEvent_beforeReset hf hr]
    rfl

end Sys2Proof.Machine
end

section
/-! What no instruction reads: the history (10_state.md R23), and, but for the CRC events, CRC (R15). Both are changed by one
overlay, which commutes with every operation. -/

namespace Sys2Proof.Machine

/-- The state with `g` applied to CRC and the records `h` put before the history. -/
def State.overlay (g : Byte → Byte) (h : List Record) (s : State) : State :=
  { s with crc := g s.crc, history := h ++ s.history }

section
variable (g : Byte → Byte) (h : List Record) (s : State)

@[simp] theorem State.overlay_mode : (s.overlay g h).mode = s.mode := rfl
@[simp] theorem State.overlay_tag : (s.overlay g h).tag = s.tag := rfl
@[simp] theorem State.overlay_fcnt : (s.overlay g h).fcnt = s.fcnt := rfl
@[simp] theorem State.overlay_freq : (s.overlay g h).freq = s.freq := rfl
@[simp] theorem State.overlay_rxlen : (s.overlay g h).rxlen = s.rxlen := rfl
@[simp] theorem State.overlay_sampleOpen : (s.overlay g h).sampleOpen = s.sampleOpen := rfl
@[simp] theorem State.overlay_drawAccept (n : Nat) : (s.overlay g h).drawAccept n = s.drawAccept n := rfl

@[simp] theorem State.overlay_recordFault (r : Fault) :
    (s.overlay g h).recordFault r = (s.recordFault r).overlay g h := rfl

@[simp] theorem State.overlay_setConsumer (m : Mode) (tag : Byte) :
    (s.overlay g h).setConsumer m tag = (s.setConsumer m tag).overlay g h := rfl

@[simp] theorem State.overlay_emit (r : Record) : (s.overlay g h).emit r = (s.emit r).overlay g h := by
  simp [State.overlay, State.emit]

@[simp] theorem State.overlay_respond (op : Byte) (st : Status) (data : List Byte) :
    (s.overlay g h).respond op st data = (s.respond op st data).overlay g h :=
  s.overlay_emit g h _

@[simp] theorem State.overlay_afterOpen : (s.overlay g h).afterOpen = s.afterOpen.overlay g h := by
  cases hs : s.openIn <;> simp [State.afterOpen, State.overlay, hs]

@[simp] theorem State.overlay_afterAccept : (s.overlay g h).afterAccept = s.afterAccept.overlay g h := by
  cases hs : s.acceptIn <;> simp [State.afterAccept, State.overlay, hs]

@[simp] theorem State.overlay_sendFrame (kind : Byte) (p : List Byte) :
    (s.overlay g h).sendFrame kind p = ((s.sendFrame kind p).1, (s.sendFrame kind p).2.overlay g h) := by
  unfold State.sendFrame
  split <;> simp [State.txWrite]

@[simp] theorem State.overlay_sendAndRespond (op kind : Byte) (p : List Byte) :
    (s.overlay g h).sendAndRespond op kind p = (s.sendAndRespond op kind p).overlay g h := by
  simp [State.sendAndRespond]

@[simp] theorem State.overlay_rxLoop (fuel : Nat) : (s.overlay g h).rxLoop fuel = (s.rxLoop fuel).overlay g h := by
  simp [State.rxLoop_eq_extractAll, State.overlay]

@[simp] theorem State.overlay_receive (b : Byte) : (s.overlay g h).receive b = (s.receive b).overlay g h := by
  by_cases hm : s.mode = .streaming
  · by_cases hl : s.rxlen = 259
    · rw [State.receive_overflow hm hl, State.receive_overflow (s := s.overlay g h) hm hl, s.overlay_recordFault]
    · rw [State.receive_streaming hm hl, State.receive_streaming (s := s.overlay g h) hm hl, ← State.overlay_rxLoop]
      rfl
  · rw [State.receive_discards hm, State.receive_discards (s := s.overlay g h) hm]

/-- The gate commutes with the overlay when the effect behind it does. -/
theorem State.overlay_atEvent {e : State → State} (he : e (s.overlay g h) = (e s).overlay g h) :
    (s.overlay g h).atEvent e = (s.atEvent e).overlay g h := by
  rcases s.atEvent_cases e with ⟨hf, e'⟩ | ⟨hf, hr, e'⟩ | ⟨hlive, e'⟩ <;> rw [e']
  · exact State.atEvent_faulted (s := s.overlay g h) hf e
  · exact State.atEvent_beforeReset (s := s.overlay g h) hf hr e
  · rw [State.atEvent_live (s := s.overlay g h) hlive, he]

theorem State.overlay_receiveAll (bs : List Byte) : (s.overlay g h).receiveAll bs = (s.receiveAll bs).overlay g h := by
  induction bs generalizing s with
  | nil => rfl
  | cons b bs ih => rw [State.receiveAll, s.overlay_atEvent g h (s.overlay_receive g h b), ih, State.receiveAll]

end

/-- An instruction that is none of the CRC events of R15 nor RST. -/
def SparesCrc (i : Instr) : Prop := i ≠ .crcClr ∧ (∀ b, i ≠ .crcUpd b) ∧ i ≠ .crcRd ∧ i ≠ .rst

/-- A gated effect that commutes with the overlay, as the outcome of an instruction. -/
theorem exec_overlay_of_gate {i : Instr} {s : State} {g : Byte → Byte} {h : List Record} {e : State → State}
    (hx : ∀ s, exec i s = .next (s.atEvent e)) (he : e (s.overlay g h) = (e s).overlay g h) :
    ∃ t, exec i s = .next t ∧ exec i (s.overlay g h) = .next (t.overlay g h) :=
  ⟨_, hx s, by rw [hx, s.overlay_atEvent g h he]⟩

/-- Every instruction commutes with the overlay, the CRC events and RST as long as it leaves CRC as it is. -/
theorem exec_overlay {i : Instr} {g : Byte → Byte} (hg : SparesCrc i ∨ g = id) (h : List Record) (s : State) :
    ∃ t, exec i s = .next t ∧ exec i (s.overlay g h) = .next (t.overlay g h) := by
  cases i with
  | crcClr =>
    obtain ⟨hne, _⟩ | rfl := hg
    · exact absurd rfl hne
    · exact exec_overlay_of_gate (fun _ => rfl) (by simp [State.overlay, State.respond, State.emit])
  | crcUpd b =>
    obtain ⟨_, hne, _⟩ | rfl := hg
    · exact absurd rfl (hne b)
    · exact exec_overlay_of_gate (fun _ => rfl) (by simp [State.overlay, State.respond, State.emit])
  | crcRd =>
    obtain ⟨_, _, hne, _⟩ | rfl := hg
    · exact absurd rfl hne
    · exact exec_overlay_of_gate (fun _ => rfl) (s.overlay_respond id h _ _ _)
  | rst =>
    obtain ⟨_, _, _, hne⟩ | rfl := hg
    · exact absurd rfl hne
    by_cases hf : s.fault = none
    · exact ⟨_, exec_rst_live hf, exec_rst_live (s := s.overlay id h) hf⟩
    · exact ⟨_, exec_rst_faulted hf, exec_rst_faulted (s := s.overlay id h) hf⟩
  | start tag =>
    refine exec_overlay_of_gate (fun _ => rfl) ?_
    by_cases ho : s.sampleOpen = true <;> simp [ho]
  | reconf baud d st p f =>
    refine exec_overlay_of_gate (fun _ => rfl) ?_
    split <;> simp
  | enc kind p =>
    refine exec_overlay_of_gate (fun _ => rfl) ?_
    split <;> simp
  | rxByte b => exact exec_overlay_of_gate (fun _ => rfl) (s.overlay_receive g h b)
  | tick => exact exec_overlay_of_gate (fun _ => rfl) rfl
  | stop | send | chk | rdMode | rdFcnt | rdFreq | rdRxlen | reserved | frameGetData | frameStop | frameReconfigureUart =>
    exact exec_overlay_of_gate (fun _ => rfl) (by simp)
  | respAccepted | respRejected | respChecksumFailed | respMalformed =>
    exact ⟨_, exec_wireIn rfl s, by rw [exec_wireIn rfl, s.overlay_receiveAll]⟩

/-- One run, from an empty history, tells what an instruction does after every history: it appends the same records. -/
theorem exec_history (i : Instr) (s : State) :
    ∃ t : State, ∀ h, exec i { s with history := h } = .next { t with history := h ++ t.history } := by
  obtain ⟨t, ht, _⟩ := exec_overlay (i := i) (.inr rfl) [] { s with history := [] }
  refine ⟨t, fun h => ?_⟩
  obtain ⟨t', ht', ho⟩ := exec_overlay (i := i) (.inr rfl) h { s with history := [] }
  cases ht.symm.trans ht'
  simpa [State.overlay] using ho

/-- Settles O36: the records of the run from an empty history are the ones appended. -/
theorem historyOnlyGrows : Obligations.HistoryOnlyGrows := by
  intro i s t hx
  obtain ⟨t₀, h₀⟩ := exec_history i s
  cases hx.symm.trans (h₀ s.history)
  exact ⟨t₀.history, rfl⟩

/-- Settles O39: the run from an empty history appends the same records to `h` and to the history before. -/
theorem noInstructionReadsTheHistory : Obligations.NoInstructionReadsTheHistory := by
  intro i s t h hx
  obtain ⟨t₀, h₀⟩ := exec_history i s
  cases hx.symm.trans (h₀ s.history)
  rw [h₀ h, List.drop_left]

/-- Settles O38: the overlay that replaces CRC and adds no record. -/
theorem otherUnitsIgnoreTheCrcRegister : Obligations.OtherUnitsIgnoreTheCrcRegister := by
  intro i s t c hclr hupd hrd hrst hx
  obtain ⟨t', ht', ho⟩ := exec_overlay (g := fun _ => c) (.inl ⟨hclr, hupd, hrd, hrst⟩) [] s
  cases hx.symm.trans ht'
  exact ho

end Sys2Proof.Machine
end

section
/-! The receive-buffer primitives (20_memory.md R31 to R33) and the FIFO law (R35). -/

namespace Sys2Proof.Machine

/-! ### Where a primitive faults -/

theorem State.rxAppend_full {s : State} (h : s.rxlen = 259) (b : Byte) : s.rxAppend b = .error .rxOverflow := by
  simp [State.rxAppend, Config.rxbufCap, h]

theorem State.rxPeek_beyond {s : State} {n : Nat} (h : s.rxlen < n) : s.rxPeek n = .error .insufficientData := by
  simp [State.rxPeek, h]

theorem State.rxConsume_beyond {s : State} {n : Nat} (h : s.rxlen < n) : s.rxConsume n = .error .insufficientData := by
  simp [State.rxConsume, State.rxPeek_beyond h]

/-- Settles O40: the primitives at and on this side of their bounds. -/
theorem bufferPrimitivesFollowTheirRules : Obligations.BufferPrimitivesFollowTheirRules :=
  ⟨fun _ b h => State.rxAppend_full h b, fun _ b h => State.rxAppend_ok h b, fun _ _ => State.rxPeek_beyond,
    fun _ _ => State.rxPeek_ok, fun _ _ => State.rxConsume_beyond, fun _ _ => State.rxConsume_ok⟩

/-! ### What a call that does not fault does to the buffer -/

theorem State.rxbuf_of_rxAppend {s t : State} {b : Byte} (h : s.rxAppend b = .ok t) : t.rxbuf = s.rxbuf ++ [b] := by
  by_cases hfull : s.rxlen = 259
  · cases (State.rxAppend_full hfull b).symm.trans h
  · cases (State.rxAppend_ok hfull b).symm.trans h
    rfl

/-- A consume splits the buffer into the bytes it answers and the bytes it leaves. -/
theorem State.rxbuf_of_rxConsume {s t : State} {n : Nat} {v : List Byte} (h : s.rxConsume n = .ok (v, t)) :
    s.rxbuf = v ++ t.rxbuf := by
  by_cases hn : n ≤ s.rxlen
  · cases (State.rxConsume_ok hn).symm.trans h
    exact (List.take_append_drop n s.rxbuf).symm
  · cases (State.rxConsume_beyond (Nat.not_le.mp hn)).symm.trans h

/-! ### Sequences of calls -/

theorem runFifo_append_ok {b : Byte} {ops : List FifoOp} {s t : State} {vs : List Byte}
    (h : runFifo (.append b :: ops) s = .ok (vs, t)) : ∃ u, s.rxAppend b = .ok u ∧ runFifo ops u = .ok (vs, t) := by
  rw [runFifo] at h
  split at h
  · cases h
  · next u hu => exact ⟨u, hu, h⟩

theorem runFifo_consume_ok {n : Nat} {ops : List FifoOp} {s t : State} {vs : List Byte}
    (h : runFifo (.consume n :: ops) s = .ok (vs, t)) :
    ∃ v u ws, s.rxConsume n = .ok (v, u) ∧ runFifo ops u = .ok (ws, t) ∧ vs = v ++ ws := by
  rw [runFifo] at h
  split at h
  · cases h
  next v u hu =>
    split at h
    · cases h
    · next ws _ hws => cases h; exact ⟨v, u, ws, hu, hws, rfl⟩

/-- Settles O41, by induction on the calls: an append adds its byte behind the buffer, a consume takes its bytes off the
front. -/
theorem bufferIsFirstInFirstOut : Obligations.BufferIsFirstInFirstOut := by
  intro ops
  induction ops with
  | nil =>
    intro s t vs h
    cases h
    exact (List.append_nil s.rxbuf).symm
  | cons op ops ih =>
    intro s t vs h
    cases op with
    | append b =>
      obtain ⟨u, hu, hrest⟩ := runFifo_append_ok h
      calc vs ++ t.rxbuf
        _ = u.rxbuf ++ appendedBytes ops := ih u t vs hrest
        _ = (s.rxbuf ++ [b]) ++ appendedBytes ops := by rw [State.rxbuf_of_rxAppend hu]
        _ = s.rxbuf ++ appendedBytes (.append b :: ops) := List.append_assoc ..
    | consume n =>
      obtain ⟨v, u, ws, hu, hrest, rfl⟩ := runFifo_consume_ok h
      calc v ++ ws ++ t.rxbuf
        _ = v ++ (ws ++ t.rxbuf) := List.append_assoc ..
        _ = v ++ (u.rxbuf ++ appendedBytes ops) := by rw [ih u t ws hrest]
        _ = v ++ u.rxbuf ++ appendedBytes ops := (List.append_assoc ..).symm
        _ = s.rxbuf ++ appendedBytes (.consume n :: ops) := by rw [State.rxbuf_of_rxConsume hu, appendedBytes]

end Sys2Proof.Machine
end

section
/-! No fault is reachable under the invariants (20_memory.md R34): the gate is open, the append finds room by R24(d), and no
other operation records a fault. -/

namespace Sys2Proof.Machine

@[simp] theorem State.sendFrame_fault (s : State) (kind : Byte) (p : List Byte) :
    (s.sendFrame kind p).2.fault = s.fault := by
  rw [s.sendFrame_registers]

@[simp] theorem State.sendFrame_resetSeen (s : State) (kind : Byte) (p : List Byte) :
    (s.sendFrame kind p).2.resetSeen = s.resetSeen := by
  rw [s.sendFrame_registers]

@[simp] theorem State.sendAndRespond_fault (s : State) (op kind : Byte) (p : List Byte) :
    (s.sendAndRespond op kind p).fault = s.fault := by
  simp [State.sendAndRespond]

@[simp] theorem State.sendAndRespond_resetSeen (s : State) (op kind : Byte) (p : List Byte) :
    (s.sendAndRespond op kind p).resetSeen = s.resetSeen := by
  simp [State.sendAndRespond]

/-! ### Receiving -/

/-- R24(d) leaves room for the byte that RX_BYTE appends. -/
theorem State.Inv.rxlen_ne_cap {s : State} (h : s.Inv) : s.rxlen ≠ 259 := by
  obtain ⟨_, _, _, hlen⟩ := h
  exact Nat.ne_of_lt (Nat.lt_succ_of_le hlen)

/-- The loop faults in no state: it peeks and consumes within the buffer. -/
theorem State.rxLoop_live {s : State} (h : s.Live) (fuel : Nat) : (s.rxLoop fuel).Live := by
  rw [State.rxLoop_eq_extractAll]
  exact h

theorem State.receive_live {s : State} (h : s.Live) (hi : s.Inv) (b : Byte) : (s.receive b).Live := by
  by_cases hm : s.mode = .streaming
  · rw [State.receive_streaming hm hi.rxlen_ne_cap]
    exact State.rxLoop_live (s := { s with rxbuf := s.rxbuf ++ [b] }) h _
  · rw [State.receive_discards hm]
    exact h

theorem State.receive_inv {s : State} (hi : s.Inv) (b : Byte) : (s.receive b).Inv :=
  (State.inv_iff _).mpr ((s.receive_received b).inv (s.inv_iff.mp hi))

theorem State.receiveAll_live {s : State} (h : s.Live) (hi : s.Inv) (bs : List Byte) : (s.receiveAll bs).Live := by
  induction bs generalizing s with
  | nil => exact h
  | cons b bs ih =>
    rw [State.receiveAll, State.atEvent_live h]
    exact ih (State.receive_live h hi b) (State.receive_inv hi b)

/-! ### Instructions -/

/-- An instruction behind the gate keeps the machine live when its effect does. -/
theorem exec_live_of_gate {i : Instr} {s : State} {e : State → State} (hx : exec i s = .next (s.atEvent e)) (h : s.Live)
    (he : (e s).Live) : ∃ t, exec i s = .next t ∧ t.Live :=
  ⟨e s, by rw [hx, State.atEvent_live h], he⟩

/-- Settles O5: the receiving instructions by the invariants, RST by R26, and every other one has an effect that writes
neither FAULT nor RESET_SEEN. -/
theorem liveMachineNeverFaults : Obligations.LiveMachineNeverFaults := by
  intro i s h hi
  cases i with
  | rxByte b => exact exec_live_of_gate rfl h (State.receive_live h hi b)
  | respAccepted | respRejected | respChecksumFailed | respMalformed =>
    exact ⟨_, exec_wireIn rfl s, State.receiveAll_live h hi _⟩
  | rst =>
    obtain ⟨hf, _⟩ := h
    exact ⟨_, exec_rst_live hf, hf, rfl⟩
  | start | reconf | enc =>
    refine exec_live_of_gate rfl h ?_
    split <;> simpa [State.Live] using h
  | stop | send | frameGetData | frameStop | frameReconfigureUart =>
    exact exec_live_of_gate rfl h (by simpa [State.Live] using h)
  | crcClr | crcUpd | crcRd | chk | tick | rdMode | rdFcnt | rdFreq | rdRxlen | reserved =>
    exact exec_live_of_gate rfl h h

end Sys2Proof.Machine
end

section
/-! What a decoded instruction was read from, channel by channel (30_encoding.md R50, R56 to R59): the converse of the round
trip, and from both that a trace which ends inside an event is refused. -/

namespace Sys2Proof

/-! ### Operands -/

theorem decodeOne_ok {bs rest : List Byte} {make : Byte → Instr} {i : Instr} (h : decodeOne bs make = .ok i rest) :
    ∃ b, i = make b ∧ bs = b :: rest := by
  cases bs with
  | nil => cases h
  | cons b bs => cases h; exact ⟨b, rfl, rfl⟩

theorem takeCounted_ok {n : Half} {bs rest : List Byte} {make : List Byte → Instr} {i : Instr}
    (h : takeCounted n bs make = .ok i rest) : ∃ p, p.length = n.toNat ∧ i = make p ∧ bs = p ++ rest := by
  unfold takeCounted at h
  split at h
  · next hn =>
    cases h
    exact ⟨bs.take n.toNat, List.length_take_of_le hn, rfl, (List.take_append_drop _ _).symm⟩
  · cases h

theorem decodeCounted_ok {bs rest : List Byte} {make : List Byte → Instr} {i : Instr}
    (h : decodeCounted bs make = .ok i rest) : ∃ p, countFits p = true ∧ i = make p ∧ encodeCounted p ++ rest = bs := by
  unfold decodeCounted at h
  split at h
  · next n0 n1 bs =>
    obtain ⟨p, hlen, rfl, rfl⟩ := takeCounted_ok h
    have hfits : p.length ≤ 65535 := by have := (halfOfBytes n0 n1).isLt; omega
    refine ⟨p, (countFits_iff p).mpr hfits, rfl, ?_⟩
    rw [encodeCounted, hlen, BitVec.ofNat_toNat, BitVec.setWidth_eq, le16_halfOfBytes]
    rfl
  · cases h

theorem decodeEnc_ok {bs rest : List Byte} {i : Instr} (h : decodeEnc bs = .ok i rest) :
    ∃ kind p, countFits p = true ∧ i = .enc kind p ∧ kind :: (encodeCounted p ++ rest) = bs := by
  cases bs with
  | nil => cases h
  | cons kind bs =>
    obtain ⟨p, hp, rfl, rfl⟩ := decodeCounted_ok (make := .enc kind) h
    exact ⟨kind, p, hp, rfl, rfl⟩

theorem decodeReconf_ok {bs rest : List Byte} {i : Instr} (h : decodeReconf bs = .ok i rest) :
    ∃ baud d st p f, i = .reconf baud d st p f ∧ le32 baud ++ d :: st :: p :: f :: rest = bs := by
  unfold decodeReconf at h
  split at h
  · cases h
    exact ⟨_, _, _, _, _, rfl, by rw [le32_wordOfBytes]; rfl⟩
  · cases h

/-! ### The channels -/

/-- `i` is a well-formed instruction of the channel `ch`, and the bytes `bs` are its encoding followed by `rest`. -/
def Instr.ReadFrom (i : Instr) (ch : Channel) (bs rest : List Byte) : Prop :=
  WellFormed i = true ∧ i.channel = ch ∧ encode i ++ rest = bs

theorem decodeOperands_ok {op : Byte} {bs rest : List Byte} {i : Instr} (h : decodeOperands op bs = .ok i rest) :
    i.ReadFrom .events (op :: bs) rest := by
  by_cases hop : isReservedOp op = true
  · cases (decodeOperands_reserved hop bs).symm.trans h
    exact ⟨hop, rfl, rfl⟩
  rw [isReservedOp_iff, Classical.not_not] at hop
  simp only [definedOps, List.mem_cons, List.not_mem_nil, or_false] at hop
  rcases hop with rfl | rfl | rfl | rfl | rfl | rfl | rfl | rfl | rfl | rfl | rfl | rfl | rfl | rfl | rfl | rfl
  · cases h; exact ⟨rfl, rfl, rfl⟩ -- CRC_CLR
  · obtain ⟨b, rfl, rfl⟩ := decodeOne_ok h; exact ⟨rfl, rfl, rfl⟩ -- CRC_UPD
  · cases h; exact ⟨rfl, rfl, rfl⟩ -- CRC_RD
  · obtain ⟨kind, p, hp, rfl, rfl⟩ := decodeEnc_ok h; exact ⟨hp, rfl, rfl⟩ -- ENC
  · obtain ⟨p, hp, rfl, rfl⟩ := decodeCounted_ok h; exact ⟨hp, rfl, rfl⟩ -- CHK
  · obtain ⟨p, hp, rfl, rfl⟩ := decodeCounted_ok h; exact ⟨hp, rfl, rfl⟩ -- SEND
  · obtain ⟨b, rfl, rfl⟩ := decodeOne_ok h; exact ⟨rfl, rfl, rfl⟩ -- START
  · cases h; exact ⟨rfl, rfl, rfl⟩ -- STOP
  · obtain ⟨baud, d, st, p, f, rfl, rfl⟩ := decodeReconf_ok h; exact ⟨rfl, rfl, rfl⟩ -- RECONF
  · obtain ⟨b, rfl, rfl⟩ := decodeOne_ok h; exact ⟨rfl, rfl, rfl⟩ -- RX_BYTE
  -- TICK, the register reads and RST have no operands
  all_goals cases h; exact ⟨rfl, rfl, rfl⟩

theorem decodeEvent_ok {bs rest : List Byte} {i : Instr} (h : decodeEvent bs = .ok i rest) :
    i.ReadFrom .events bs rest := by
  cases bs with
  | nil => cases h
  | cons op bs => exact decodeOperands_ok h

/-- The command frames of R52 by kind and payload. -/
theorem commandFrame_some {k : Byte} {p : List Byte} {i : Instr} (h : commandFrame k p = some i) :
    WellFormed i = true ∧ i.channel = .wireOut ∧ encode i = frameOf k p := by
  unfold commandFrame at h
  split at h
  · split at h
    · next hk => cases h; exact ⟨rfl, rfl, hk ▸ rfl⟩
    · split at h
      · next hk => cases h; exact ⟨rfl, rfl, hk ▸ rfl⟩
      · cases h
  · split at h
    · next hk =>
      obtain ⟨rfl, hcodes⟩ := hk
      cases h
      exact ⟨hcodes, rfl, rfl⟩
    · cases h
  · cases h

theorem decodeWireOut_ok {bs rest : List Byte} {i : Instr} (h : decodeWireOut bs = .ok i rest) :
    i.ReadFrom .wireOut bs rest := by
  unfold decodeWireOut at h
  split at h
  · cases h
  split at h
  · next k p c r hs =>
    obtain ⟨_, hbytes⟩ := splitFrame_some hs
    split at h
    · next hc =>
      split at h
      · next j hj =>
        cases h
        obtain ⟨hwf, hch, he⟩ := commandFrame_some hj
        exact ⟨hwf, hch, by rw [he, frameOf, ← hc, hbytes]⟩
      · cases h
    · cases h
  · cases h

/-- The response frames of R53 by kind. -/
theorem responseFrame_some {k c : Byte} {p : List Byte} {i : Instr} (hp : p.length ≤ 255)
    (h : responseFrame k p c = some i) : WellFormed i = true ∧ i.channel = .wireIn ∧ encode i = frameWith k p c := by
  have hfits : payloadFits p = true := (payloadFits_iff p).mpr hp
  unfold responseFrame at h
  split at h
  · next hk => cases h; exact ⟨hfits, rfl, hk ▸ rfl⟩
  split at h
  · next hk => cases h; exact ⟨hfits, rfl, hk ▸ rfl⟩
  split at h
  · next hk => cases h; exact ⟨hfits, rfl, hk ▸ rfl⟩
  split at h
  · next hk => cases h; exact ⟨hfits, rfl, hk ▸ rfl⟩
  · cases h

theorem decodeWireIn_ok {bs rest : List Byte} {i : Instr} (h : decodeWireIn bs = .ok i rest) :
    i.ReadFrom .wireIn bs rest ∨ ∃ b, i = .rxByte b ∧ bs = b :: rest := by
  cases bs with
  | nil => cases h
  | cons b tail =>
    simp only [decodeWireIn] at h
    split at h
    · next k p c r hs =>
      obtain ⟨hp, hbytes⟩ := splitFrame_some hs
      split at h
      · next j hj =>
        cases h
        obtain ⟨hwf, hch, he⟩ := responseFrame_some hp hj
        exact .inl ⟨hwf, hch, by rw [he, hbytes]⟩
      · cases h; exact .inr ⟨b, rfl, rfl⟩
    · cases h; exact .inr ⟨b, rfl, rfl⟩

/-- Settles O53, by the round trip of each channel. -/
theorem decodeOfEncodeIsTheInstruction : Obligations.DecodeOfEncodeIsTheInstruction :=
  fun _ rest h => decode_encode h rest

/-- Settles O54, by what each channel's decoder reads. -/
theorem encodeOfDecodeIsTheBytes : Obligations.EncodeOfDecodeIsTheBytes := by
  refine ⟨fun ch bs rest i hch h => ?_, fun _ _ _ => decodeWireIn_ok⟩
  cases ch with
  | events => exact decodeEvent_ok h
  | wireOut => exact decodeWireOut_ok h
  | wireIn => exact absurd rfl hch

/-! ### Truncated traces -/

/-- An answer that R58 allows where a byte is pending: an event, or the refusal of a truncated one. -/
inductive Decoded.EventOrTruncated : Decoded → Prop
  | event (i : Instr) (rest : List Byte) : EventOrTruncated (.ok i rest)
  | truncated : EventOrTruncated (.reject .traceTruncated)

open Decoded (EventOrTruncated)

theorem decodeOne_eventOrTruncated (bs : List Byte) (make : Byte → Instr) : EventOrTruncated (decodeOne bs make) := by
  cases bs with
  | nil => exact .truncated
  | cons b rest => exact .event _ _

theorem decodeCounted_eventOrTruncated (bs : List Byte) (make : List Byte → Instr) :
    EventOrTruncated (decodeCounted bs make) := by
  unfold decodeCounted takeCounted
  split
  · split
    · exact .event _ _
    · exact .truncated
  · exact .truncated

theorem decodeEnc_eventOrTruncated (bs : List Byte) : EventOrTruncated (decodeEnc bs) := by
  cases bs with
  | nil => exact .truncated
  | cons kind rest => exact decodeCounted_eventOrTruncated rest _

theorem decodeReconf_eventOrTruncated (bs : List Byte) : EventOrTruncated (decodeReconf bs) := by
  unfold decodeReconf
  split
  · exact .event _ _
  · exact .truncated

theorem decodeOperands_eventOrTruncated (op : Byte) (bs : List Byte) : EventOrTruncated (decodeOperands op bs) := by
  simp only [decodeOperands, apply_ite EventOrTruncated, EventOrTruncated.event, decodeOne_eventOrTruncated,
    decodeCounted_eventOrTruncated, decodeEnc_eventOrTruncated, decodeReconf_eventOrTruncated, ite_self]

theorem decodeEvent_eventOrTruncated {bs : List Byte} (h : bs ≠ []) : EventOrTruncated (decodeEvent bs) := by
  cases bs with
  | nil => exact absurd rfl h
  | cons op rest => exact decodeOperands_eventOrTruncated op rest

/-- On one channel, no well-formed instruction's encoding begins with another's: nothing follows it there. -/
theorem encode_prefix_free {i j : Instr} {more : List Byte} (hi : WellFormed i = true) (hj : WellFormed j = true)
    (hch : i.channel = j.channel) (h : encode j ++ more = encode i) : more = [] := by
  have hdi := decode_encode hi []
  rw [List.append_nil, ← h, hch, decode_encode hj] at hdi
  cases hdi
  rfl

theorem decodeEvent_take_encode {i : Instr} {n : Nat} (hi : WellFormed i = true) (hch : i.channel = .events) (h0 : 0 < n)
    (hn : n < (encode i).length) : decodeEvent ((encode i).take n) = .reject .traceTruncated := by
  have hne : (encode i).take n ≠ [] := by
    rw [← List.length_pos_iff, List.length_take]
    omega
  have hcases := decodeEvent_eventOrTruncated hne
  cases hd : decodeEvent ((encode i).take n) with
  | reject r => rw [hd] at hcases; cases hcases; rfl
  | ok j rest =>
    obtain ⟨hj, hjch, hbytes⟩ := decodeEvent_ok hd
    have hwhole : encode j ++ (rest ++ (encode i).drop n) = encode i := by
      rw [← List.append_assoc, hbytes, List.take_append_drop]
    have hnil := encode_prefix_free hi hj (hch.trans hjch.symm) hwhole
    have hdrop : (encode i).drop n = [] := (List.append_eq_nil_iff.mp hnil).2
    exact absurd (List.drop_eq_nil_iff.mp hdrop) (Nat.not_le.mpr hn)

/-- Settles O55: an event read from a proper part of an encoding would be an encoding that begins it. -/
theorem truncatedTracesAreRefused : Obligations.TruncatedTracesAreRefused := by
  intro i n s hi hch h0 hn hs htr
  have hd : decode .events s.trace = .reject .traceTruncated := by
    rw [htr]
    exact decodeEvent_take_encode hi hch h0 hn
  refine ⟨hd, ?_⟩
  simp only [Machine.step, hs, hd]

/-! ### Reserved and tabled words -/

/-- A first byte is a RESERVED event exactly when it is in R59's ranges. -/
theorem decode_reserved_iff (op : Byte) (rest : List Byte) :
    decode .events (op :: rest) = .ok (.reserved op) rest ↔ isReservedOp op = true := by
  constructor
  · intro h
    obtain ⟨hwf, _, _⟩ := decodeEvent_ok (bs := op :: rest) h
    exact hwf
  · exact fun h => decodeOperands_reserved h rest

/-- Settles O32: both lists are those of the opcode table, and the response is the only effect. -/
theorem reservedOpcodesRespondIllegal : Obligations.ReservedOpcodesRespondIllegal :=
  ⟨fun op rest => (decode_reserved_iff op rest).trans (isReservedOp_iff op), isReservedOp_iff,
    fun _ _ hlive => congrArg Host.Outcome.next (Machine.State.atEvent_live hlive _)⟩

/-- Settles O56: the decoder runs on each word; the checksum of the command frame is computed. -/
theorem tabledWordsDecode : Obligations.TabledWordsDecode :=
  ⟨by decide, by decide, by decide, by decide, by decide, by decide, by decide +kernel, by decide⟩

end Sys2Proof
end

section
/-! The records an instruction adds to the history (10_state.md R23): a command-port event its writes and then one `Resp`
(30_encoding.md R60), any other instruction no `Resp`; and every dispatched frame is length-delimited (R51). -/

namespace Sys2Proof.Machine

/-! ### Records -/

/-- A frame that begins with the marker and has exactly the length its third byte declares (R51). -/
def Delimited (f : List Byte) : Prop := f.getD 0 0#8 = Config.marker ∧ f.length = frameLength (f.getD 2 0#8)

/-- A record that no command asks for as its reply: a write offered to the transport, or a frame dispatched in Streaming to
the consumer of the state `s` with its advisory bit (R131). -/
inductive Unasked (s : State) : Record → Prop
  | sent (bs : List Byte) (k : Nat) : Unasked s (.txWrite bs k)
  | dispatched {f : List Byte} (hm : s.mode = .streaming) (hf : Delimited f) : Unasked s (.frameOut s.tag f (crcOk f))

theorem Unasked.isResp {s : State} {r : Record} (h : Unasked s r) : r.isResp = false := by
  cases h <;> rfl

theorem Unasked.of_consumer {s t : State} (hm : t.mode = s.mode) (ht : t.tag = s.tag) {r : Record} (h : Unasked t r) :
    Unasked s r := by
  cases h with
  | sent bs k => exact .sent bs k
  | dispatched ms hf => rw [ht]; exact .dispatched (hm ▸ ms) hf

/-- The history of `t` is that of `s` and then records which all satisfy `P`. -/
def State.Adds (P : Record → Prop) (s t : State) : Prop := ∃ recs, t.history = s.history ++ recs ∧ ∀ r ∈ recs, P r

section
variable {P : Record → Prop} {s t u : State}

theorem State.Adds.of_eq (h : t.history = s.history) : s.Adds P t := ⟨[], by simp [h], by simp⟩

theorem State.Adds.trans (h : s.Adds P t) (h' : t.Adds P u) : s.Adds P u := by
  obtain ⟨xs, hx, hxs⟩ := h
  obtain ⟨ys, hy, hys⟩ := h'
  refine ⟨xs ++ ys, by rw [hy, hx, List.append_assoc], fun r hr => ?_⟩
  exact (List.mem_append.mp hr).elim (hxs r) (hys r)

theorem State.Adds.mono {Q : Record → Prop} (hPQ : ∀ r, P r → Q r) (h : s.Adds P t) : s.Adds Q t := by
  obtain ⟨recs, hrecs, hP⟩ := h
  exact ⟨recs, hrecs, fun r hr => hPQ r (hP r hr)⟩

/-- The records behind the history before are the ones added. -/
theorem State.Adds.of_mem_drop (h : s.Adds P t) {r : Record} (hr : r ∈ t.history.drop s.history.length) : P r := by
  obtain ⟨recs, hrecs, hP⟩ := h
  rw [hrecs, List.drop_left] at hr
  exact hP r hr

/-- The gate adds no record. -/
theorem State.atEvent_adds {e : State → State} (he : s.Adds P (e s)) : s.Adds P (s.atEvent e) := by
  rcases s.atEvent_cases e with ⟨_, h⟩ | ⟨_, _, h⟩ | ⟨_, h⟩ <;> rw [h]
  · exact .of_eq rfl
  · exact .of_eq rfl
  · exact he

end

/-- A write adds its own record, whichever consumer `s` has. -/
theorem State.txWrite_adds (s t : State) (bs : List Byte) : t.Adds (Unasked s) (t.txWrite bs).2 :=
  ⟨[.txWrite bs (t.drawAccept bs.length)], by simp, by simpa using .sent _ _⟩

theorem State.sendFrame_adds (s t : State) (kind : Byte) (p : List Byte) :
    t.Adds (Unasked s) (t.sendFrame kind p).2 := by
  rcases t.sendFrame_cases kind p with ⟨_, h⟩ | ⟨_, h⟩ <;> rw [h]
  · exact s.txWrite_adds t _
  · exact .of_eq rfl

/-! ### Received bytes -/

theorem Delimited.take {buf : List Byte} (hm : buf.getD 0 0#8 = Config.marker)
    (hl : frameLength (buf.getD 2 0#8) ≤ buf.length) : Delimited (buf.take (frameLength (buf.getD 2 0#8))) := by
  have hget : ∀ j, j < 3 → (buf.take (frameLength (buf.getD 2 0#8))).getD j 0#8 = buf.getD j 0#8 := by
    intro j hj
    have hlt : j < frameLength (buf.getD 2 0#8) := by unfold frameLength; omega
    rw [List.getD_eq_getElem?_getD, List.getElem?_take_of_lt hlt, List.getD_eq_getElem?_getD]
  exact ⟨by rw [hget 0 (by decide), hm], by rw [hget 2 (by decide), List.length_take_of_le hl]⟩

/-- The source's loop extracts delimited frames only. -/
theorem extractAll_delimited (fuel : Nat) (buf : List Byte) : ∀ f ∈ (extractAll fuel buf).1, Delimited f := by
  induction fuel generalizing buf with
  | zero => simp [extractAll]
  | succ n ih =>
    unfold extractAll
    split
    · simp
    split
    · exact ih _
    · next hm =>
      split
      · simp
      · next hl =>
        intro f hf
        rcases List.mem_cons.mp hf with rfl | hf
        · exact .take (Classical.not_not.mp hm) (Nat.not_lt.mp hl)
        · exact ih _ f hf

theorem State.receive_adds (s : State) (b : Byte) : s.Adds (Unasked s) (s.receive b) := by
  by_cases hm : s.mode = .streaming
  · by_cases hl : s.rxlen = 259
    · rw [State.receive_overflow hm hl]
      exact .of_eq rfl
    · rw [State.receive_streaming hm hl, State.rxLoop_eq_extractAll]
      refine ⟨_, rfl, fun r hr => ?_⟩
      obtain ⟨f, hf, rfl⟩ := List.mem_map.mp hr
      exact .dispatched hm (extractAll_delimited _ _ f hf)
  · rw [State.receive_discards hm]
    exact .of_eq rfl

theorem Registers.Received.mode_tag {r r' : Registers} (h : r.Received r') : r'.mode = r.mode ∧ r'.tag = r.tag := by
  obtain ⟨_, _, rfl, _⟩ := h
  exact ⟨rfl, rfl⟩

theorem State.receiveAll_adds (s : State) (bs : List Byte) : s.Adds (Unasked s) (s.receiveAll bs) := by
  induction bs generalizing s with
  | nil => exact .of_eq rfl
  | cons b bs ih =>
    have hfirst : s.Adds (Unasked s) (s.receiveAll [b]) := State.atEvent_adds (s.receive_adds b)
    obtain ⟨hm, ht⟩ := (s.receiveAll_received [b]).mode_tag
    exact hfirst.trans ((ih _).mono fun _ => Unasked.of_consumer hm ht)

/-! ### Commands -/

/-- The history of `t` is that of `s`, then records that are no reply, then one `Resp` with the opcode `op` (R60). -/
def State.Answers (op : Byte) (s t : State) : Prop :=
  ∃ u st data, s.Adds (Unasked s) u ∧ t.history = u.history ++ [.resp op st data]

theorem State.Adds.respond {s u : State} (h : s.Adds (Unasked s) u) (op : Byte) (st : Status) (data : List Byte) :
    s.Answers op (u.respond op st data) := ⟨u, st, data, h, rfl⟩

/-- An answer by a state that has cleared or set the consumer and drawn from the environment, but added no record. -/
theorem State.answers_sendAndRespond {s u : State} (h : u.history = s.history) (op kind : Byte) (p : List Byte) :
    s.Answers op (u.sendAndRespond op kind p) :=
  State.Adds.respond ((State.Adds.of_eq h).trans (s.sendFrame_adds u kind p)) op _ _

/-- Every command stands behind the gate and answers with its opcode. -/
theorem exec_command {i : Instr} (h : isCommand i = true) :
    ∃ e : State → State, (∀ s, exec i s = .next (s.atEvent e)) ∧ ∀ s : State, s.Answers ((encode i).headD 0#8) (e s) := by
  cases i with
  | rxByte | tick | rst | frameGetData | frameStop | frameReconfigureUart | respAccepted | respRejected
  | respChecksumFailed | respMalformed => cases h
  | start tag =>
    refine ⟨_, fun _ => rfl, fun s => ?_⟩
    split
    · exact State.answers_sendAndRespond (by simp) _ _ _
    · exact State.Adds.respond (.of_eq (by simp)) _ _ _
  | reconf baud d st p f =>
    refine ⟨_, fun _ => rfl, fun s => ?_⟩
    split
    · exact State.Adds.respond (.of_eq (by simp)) _ _ _
    · exact State.answers_sendAndRespond (by simp) _ _ _
  | enc kind p =>
    refine ⟨_, fun _ => rfl, fun s => ?_⟩
    split <;> exact State.Adds.respond (.of_eq rfl) _ _ _
  | stop => exact ⟨_, fun _ => rfl, fun s => State.answers_sendAndRespond (by simp) _ _ _⟩
  | send bs => exact ⟨_, fun _ => rfl, fun s => (s.txWrite_adds s bs).respond _ _ _⟩
  | crcClr | crcUpd | crcRd | chk | rdMode | rdFcnt | rdFreq | rdRxlen | reserved =>
    exact ⟨_, fun _ => rfl, fun s => State.Adds.respond (.of_eq rfl) _ _ _⟩

/-- An instruction that is no command adds no `Resp`. -/
theorem exec_not_command {i : Instr} (h : isCommand i = false) (s : State) :
    ∃ t, exec i s = .next t ∧ s.Adds (Unasked s) t := by
  cases i with
  | rxByte b => exact ⟨_, rfl, State.atEvent_adds (s.receive_adds b)⟩
  | tick => exact ⟨_, rfl, State.atEvent_adds (.of_eq rfl)⟩
  | rst =>
    by_cases hf : s.fault = none
    · exact ⟨_, exec_rst_live hf, .of_eq rfl⟩
    · exact ⟨_, exec_rst_faulted hf, .of_eq rfl⟩
  | frameGetData | frameStop | frameReconfigureUart => exact ⟨_, rfl, State.atEvent_adds (s.sendFrame_adds s _ _)⟩
  | respAccepted | respRejected | respChecksumFailed | respMalformed =>
    exact ⟨_, exec_wireIn rfl s, s.receiveAll_adds _⟩
  | _ => cases h

/-- Settles O37: the gate is open in a live state, and the instructions that are no command are silent or unasked. -/
theorem commandsRespondExactlyOnce : Obligations.CommandsRespondExactlyOnce := by
  refine ⟨fun i s hlive hi => ?_, fun i s t hi hx r hr => ?_⟩
  · obtain ⟨e, he, hanswers⟩ := exec_command hi
    obtain ⟨u, st, data, ⟨recs, hu, hrecs⟩, ht⟩ := hanswers s
    exact ⟨e s, recs, st, data, by rw [he, State.atEvent_live hlive], by rw [ht, hu],
      fun r hr => (hrecs r hr).isResp⟩
  · obtain ⟨t', ht', hadds⟩ := exec_not_command hi s
    cases hx.symm.trans ht'
    exact (hadds.of_mem_drop hr).isResp

/-- Every record an instruction adds is a reply or an unasked record of the state before. -/
theorem exec_adds {i : Instr} {s t : State} (h : exec i s = .next t) :
    s.Adds (fun r => r.isResp = true ∨ Unasked s r) t := by
  cases hi : isCommand i with
  | true =>
    obtain ⟨e, he, hanswers⟩ := exec_command hi
    obtain ⟨u, st, data, hu, ht⟩ := hanswers s
    cases (he s).symm.trans h
    have hreply : u.Adds (fun r => r.isResp = true ∨ Unasked s r) (e s) := ⟨_, ht, by simp [Record.isResp]⟩
    exact State.atEvent_adds ((hu.mono fun _ => .inr).trans hreply)
  | false =>
    obtain ⟨t', ht', hadds⟩ := exec_not_command hi s
    cases h.symm.trans ht'
    exact hadds.mono fun _ => .inr

/-- Settles O50: a FrameOut record is no reply, so it is one dispatched from the state before. -/
theorem dispatchedFramesAreLengthDelimited : Obligations.DispatchedFramesAreLengthDelimited := by
  intro i s t tag f ok hx hr
  rcases (exec_adds hx).of_mem_drop hr with hresp | hunasked
  · cases hresp
  · cases hunasked with
    | dispatched hm hf =>
      obtain ⟨hmarker, hlen⟩ := hf
      exact ⟨hm, rfl, hmarker, by rw [hlen, frameLength]; omega, rfl⟩

end Sys2Proof.Machine
end

section
/-! A chunk of received bytes that is one frame (43_rx_sync.md R130, R132): the bytes of an incomplete frame are kept, and
the byte that completes it dispatches it whole. -/

namespace Sys2Proof.Machine

/-! ### Chunks -/

/-- RX_CHUNK runs as the reception of its bytes. -/
theorem runAll_rxChunk (bs : List Byte) (s : State) : runAll (rxChunk bs) s = .next (s.receiveAll bs) := by
  induction bs generalizing s with
  | nil => rfl
  | cons b bs ih => exact ih _

theorem State.receiveAll_singleton {s : State} (h : s.Live) (b : Byte) : s.receiveAll [b] = s.receive b := by
  rw [State.receiveAll, State.atEvent_live h, State.receiveAll]

/-- Received bytes are discarded outside Streaming. -/
theorem State.receiveAll_discards {s : State} (h : s.Live) (hm : s.mode ≠ .streaming) (bs : List Byte) :
    s.receiveAll bs = s := by
  induction bs with
  | nil => rfl
  | cons b bs ih => rw [State.receiveAll, State.atEvent_live h, State.receive_discards hm, ih]

/-! ### An incomplete frame -/

/-- A byte within the front part of a buffer is that part's. -/
theorem getD_append_of_lt {xs : List Byte} {j : Nat} (h : j < xs.length) (ys : List Byte) (d : Byte) :
    (xs ++ ys).getD j d = xs.getD j d := by
  rw [List.getD_eq_getElem?_getD, List.getElem?_append_left h, List.getD_eq_getElem?_getD]

/-- The buffer up to any byte meets R24(c) if the buffer up to a later one does. -/
theorem Framing.of_append {xs ys : List Byte} (h : Framing (xs ++ ys)) : Framing xs := by
  by_cases hx : xs.length < 3
  · exact .inl hx
  rw [Framing, List.length_append, getD_append_of_lt (by omega), getD_append_of_lt (by omega)] at h
  rcases h with hshort | ⟨hm, hl⟩
  · omega
  · exact .inr ⟨hm, by omega⟩

/-- With an incomplete frame in the buffer the loop does nothing. -/
theorem State.rxLoop_framing {s : State} (h : Framing s.rxbuf) (fuel : Nat) : s.rxLoop (fuel + 1) = s := by
  by_cases hs : s.rxlen < 3
  · exact State.rxLoop_short hs _
  · obtain ⟨hm, hl⟩ := h.resolve_left hs
    exact State.rxLoop_wait (Nat.not_lt.mp hs) hm hl fuel

/-- A byte that leaves the frame incomplete is kept. -/
theorem State.receive_waits {s : State} (hm : s.mode = .streaming) {b : Byte} (h : Framing (s.rxbuf ++ [b])) :
    s.receive b = { s with rxbuf := s.rxbuf ++ [b] } := by
  have hlen := h.length_le
  have hcap : s.rxlen ≠ 259 := by
    rw [List.length_append] at hlen
    simp only [State.rxlen]
    omega
  rw [State.receive_streaming hm hcap]
  exact State.rxLoop_framing (s := { s with rxbuf := s.rxbuf ++ [b] }) h _

/-- A chunk that leaves the frame incomplete is kept whole: by `Framing.of_append` no byte of it completes a frame. -/
theorem State.receiveAll_waits {s : State} (hlive : s.Live) (hm : s.mode = .streaming) {bs : List Byte}
    (h : Framing (s.rxbuf ++ bs)) : s.receiveAll bs = { s with rxbuf := s.rxbuf ++ bs } := by
  induction bs generalizing s with
  | nil => simp [State.receiveAll]
  | cons b bs ih =>
    rw [List.append_cons] at h ⊢
    rw [State.receiveAll, State.atEvent_live hlive, State.receive_waits hm h.of_append]
    exact ih (s := { s with rxbuf := s.rxbuf ++ [b] }) hlive hm h

/-! ### The byte that completes a frame -/

/-- The byte that completes a frame dispatches it and empties the buffer. -/
theorem State.receive_completes {s : State} (hm : s.mode = .streaming) {b : Byte} (h : Delimited (s.rxbuf ++ [b])) :
    s.receive b = State.dispatch { s with rxbuf := [] } (s.rxbuf ++ [b]) := by
  obtain ⟨hmarker, hlen⟩ := h
  have hbyte := ((s.rxbuf ++ [b]).getD 2 0#8).isLt
  have hbuf : (s.rxbuf ++ [b]).length = s.rxlen + 1 := List.length_append
  have h3 : 3 ≤ (s.rxbuf ++ [b]).length := by rw [hlen, frameLength]; omega
  have hcap : s.rxlen ≠ 259 := by rw [hbuf, frameLength] at hlen; omega
  rw [State.receive_streaming hm hcap, State.rxLoop_frame (s := { s with rxbuf := s.rxbuf ++ [b] }) h3 hmarker
    (Nat.le_of_eq hlen.symm)]
  simp only [← hlen, List.take_length, List.drop_length]
  exact State.rxLoop_short (by simp [State.rxlen]) _

theorem frameLength_lengthByte {p : List Byte} (h : p.length ≤ 255) :
    frameLength (BitVec.ofNat 8 p.length) = p.length + 4 := by
  rw [frameLength, toNat_lengthByte h]
  omega

theorem frameBody_framing (kind : Byte) {p : List Byte} (h : p.length ≤ 255) : Framing (frameBody kind p) := by
  refine .inr ⟨rfl, ?_⟩
  show (frameBody kind p).length < frameLength (BitVec.ofNat 8 p.length)
  rw [frameLength_lengthByte h, frameBody_length]
  omega

theorem frameWith_delimited (kind c : Byte) {p : List Byte} (h : p.length ≤ 255) : Delimited (frameWith kind p c) :=
  ⟨rfl, (frameWith_length kind p c).trans (frameLength_lengthByte h).symm⟩

/-- A frame received from an empty buffer in Streaming is dispatched whole. -/
theorem State.receiveAll_frameWith {s : State} (hlive : s.Live) (hm : s.mode = .streaming) (hb : s.rxbuf = [])
    (kind c : Byte) {p : List Byte} (h : p.length ≤ 255) :
    s.receiveAll (frameWith kind p c) = s.dispatch (frameWith kind p c) := by
  have hbody : s.receiveAll (frameBody kind p) = { s with rxbuf := frameBody kind p } := by
    rw [State.receiveAll_waits hlive hm (by rw [hb]; exact frameBody_framing kind h), hb, List.nil_append]
  calc s.receiveAll (frameBody kind p ++ [c])
    _ = (s.receiveAll (frameBody kind p)).receiveAll [c] := s.receiveAll_append _ _
    _ = State.receive { s with rxbuf := frameBody kind p } c := by
      rw [hbody]
      exact State.receiveAll_singleton (s := { s with rxbuf := frameBody kind p }) hlive c
    _ = State.dispatch { s with rxbuf := [] } (frameWith kind p c) :=
      State.receive_completes (s := { s with rxbuf := frameBody kind p }) hm (frameWith_delimited kind c h)
    _ = s.dispatch (frameWith kind p c) := by rw [← hb]

/-- The response frames of R53, from their kind bytes. -/
theorem response_of_kind {i : Instr} {kind c : Byte} {p : List Byte}
    (h : (kind, i) ∈ [(0x01#8, Instr.respAccepted p c), (0x02#8, .respRejected p c), (0x03#8, .respChecksumFailed p c),
      (0x04#8, .respMalformed p c)]) : i.channel = .wireIn ∧ encode i = frameWith kind p c := by
  simp only [List.mem_cons, List.not_mem_nil, or_false, Prod.mk.injEq] at h
  rcases h with ⟨rfl, rfl⟩ | ⟨rfl, rfl⟩ | ⟨rfl, rfl⟩ | ⟨rfl, rfl⟩ <;> exact ⟨rfl, rfl⟩

/-- Settles O52, by what the reception of a chunk does. -/
theorem responseFramesAreReceived : Obligations.ResponseFramesAreReceived := by
  intro i kind p c hi
  obtain ⟨hch, he⟩ := response_of_kind hi
  refine ⟨he, fun s => ?_, fun s hlive hm => ?_, fun s hlive hm hb hp => ?_⟩
  · rw [exec_wireIn hch, runAll_rxChunk]
  · rw [exec_wireIn hch, State.receiveAll_discards hlive hm]
  · rw [exec_wireIn hch, he, State.receiveAll_frameWith hlive hm hb kind c hp]
    rfl

end Sys2Proof.Machine
end

section
/-! Frames sent (42_engine.md R100): SEND_CMD (30_encoding.md R64) and the command frames (R52). -/

namespace Sys2Proof.Machine

/-! ### Command frames -/

/-- In a live state a command frame is offered to the transport, and nothing else changes. -/
theorem State.atEvent_sendFrame {s : State} (h : s.Live) (kind : Byte) {p : List Byte} (hp : p.length ≤ 255) :
    (s.atEvent fun s => (s.sendFrame kind p).2) = { s.afterAccept with
      history := s.history ++ [.txWrite (frameOf kind p) (s.drawAccept (p.length + 4))] } := by
  rw [State.atEvent_live h, State.sendFrame_ok s kind hp, State.txWrite_state, frameOf_length, ← s.afterAccept_history]
  rfl

theorem frameOf_getData : frameOf Config.cmdGetData [] = [0xAA#8, 0x01#8, 0x00#8, 0xDA#8] := by decide +kernel

theorem frameOf_stop : frameOf Config.cmdStop [] = [0xAA#8, 0x02#8, 0x00#8, 0xE5#8] := by decide +kernel

/-- Settles O51: the checksums are computed, and each frame is sent by `send_frame`. -/
theorem commandFramesAreOfferedToTheTransport : Obligations.CommandFramesAreOfferedToTheTransport := by
  refine ⟨frameOf_getData, frameOf_stop, by decide +kernel, fun s h => ?_, fun s h => ?_, fun c0 c1 c2 c3 c4 s h => ?_⟩
  · rw [← frameOf_getData]
    exact congrArg Host.Outcome.next (State.atEvent_sendFrame h _ (by decide))
  · rw [← frameOf_stop]
    exact congrArg Host.Outcome.next (State.atEvent_sendFrame h _ (by decide))
  · exact congrArg Host.Outcome.next (State.atEvent_sendFrame h Config.cmdReconf (p := [c0, c1, c2, c3, c4]) (by simp))

/-! ### SEND_CMD -/

theorem exec_enc_fits {kind : Byte} {p : List Byte} (hp : p.length ≤ 255) {s : State} (h : s.Live) :
    exec (.enc kind p) s = .next (s.respond Op.enc .ok (frameOf kind p)) := by
  simp only [exec, execEnc, State.atEvent_live h, encodeFrame_ok hp]

theorem exec_enc_tooLarge {kind : Byte} {p : List Byte} (hp : 255 < p.length) {s : State} (h : s.Live) :
    exec (.enc kind p) s = .next (s.respond Op.enc .payloadTooLarge []) := by
  simp only [exec, execEnc, State.atEvent_live h, encodeFrame_tooLarge hp]

theorem exec_send_live {s : State} (h : s.Live) (bs : List Byte) :
    exec (.send bs) s = .next { s.afterAccept with
      history := s.history ++ [.txWrite bs (s.drawAccept bs.length),
        .resp Op.send (writeStatus bs.length (s.drawAccept bs.length)) []] } := by
  simp only [exec, execSend, State.atEvent_live h, State.respond, State.emit, State.txWrite, State.afterAccept_history,
    List.append_assoc, List.cons_append, List.nil_append]

/-- A response does not touch the draws. -/
theorem State.respond_afterAccept (s : State) (op : Byte) (st : Status) (data : List Byte) :
    (s.respond op st data).afterAccept = s.afterAccept.respond op st data := by
  cases hs : s.acceptIn <;> simp [State.afterAccept, State.respond, State.emit, hs]

@[simp] theorem State.respond_drawAccept (s : State) (op : Byte) (st : Status) (data : List Byte) (n : Nat) :
    (s.respond op st data).drawAccept n = s.drawAccept n := rfl

theorem runAll_cons_of_next {i : Instr} {is : List Instr} {s t : State} (h : exec i s = .next t) :
    runAll (i :: is) s = runAll is t := by
  simp only [runAll, h]

/-- Settles O33, by ENC's two cases. -/
theorem sendCmdEncodesThenSends : Obligations.SendCmdEncodesThenSends := by
  refine ⟨fun kind p s h => ?_, fun kind p s h hp => ?_, fun kind p s h hp => ?_⟩
  · by_cases hp : p.length ≤ 255
    · exact ⟨.ok, frameOf kind p, exec_enc_fits hp h, sendCmd_ok hp⟩
    · have hp : 255 < p.length := Nat.not_le.mp hp
      exact ⟨.payloadTooLarge, [], exec_enc_tooLarge hp h, sendCmd_tooLarge hp⟩
  · refine ⟨_, rfl, ?_⟩
    rw [sendCmd_ok hp, runAll_cons_of_next (exec_enc_fits hp h),
      runAll_cons_of_next (exec_send_live (s := s.respond Op.enc .ok (frameOf kind p)) h _), runAll,
      State.respond_afterAccept, State.respond_drawAccept, State.respond_history, frameOf_length, List.append_assoc]
    rfl
  · rw [sendCmd_tooLarge hp, runAll_cons_of_next (exec_enc_tooLarge hp h)]
    rfl

end Sys2Proof.Machine
end

section
/-! The CRC as a function of bytes (40_crc.md R80, R81, R85): the bit loop, the fold and the table, and, because the loop is
linear and injective, the laws of R85. -/

namespace Sys2Proof

/-! ### The loop and the fold -/

theorem crc8Shift_of_bit7_clear {c : Byte} (h : c.getLsbD 7 = false) : crc8Shift c = c <<< 1 := by
  rw [crc8Shift, h, if_neg Bool.false_ne_true]

theorem crc8Shift_of_bit7_set {c : Byte} (h : c.getLsbD 7 = true) : crc8Shift c = (c <<< 1) ^^^ Config.poly := by
  rw [crc8Shift, if_pos h]

theorem crc8Shifts_eq_foldl {α : Type} (xs : List α) (c : Byte) :
    crc8Shifts xs.length c = xs.foldl (fun x _ => crc8Shift x) c := by
  induction xs generalizing c with
  | nil => rfl
  | cons x xs ih => exact ih _

/-- Settles O6: eight iterations are a fold over any list of eight, and bit 7 of a byte is its most significant bit. -/
theorem crcStepFollowsTheBitLoop : Obligations.CrcStepFollowsTheBitLoop :=
  ⟨fun c b => crc8Shifts_eq_foldl (List.range 8) (c ^^^ b), by decide, by decide, by decide, by decide⟩

theorem crc8From_eq_foldl (c : Byte) (bs : List Byte) : crc8From c bs = bs.foldl crc8Step c := by
  induction bs generalizing c with
  | nil => rfl
  | cons b bs ih => exact ih _

/-- Settles O7. -/
theorem crcOfBytesFoldsTheStep : Obligations.CrcOfBytesFoldsTheStep :=
  ⟨crc8From_eq_foldl _, by decide, by decide, by decide +kernel⟩

/-- The rows of the printed table are the loop's values from 00. -/
theorem crc8Step_zero_eq_table : ∀ x : Byte, crc8Step 0#8 x = Machine.printedCrcTable.getD x.toNat 0#8 := by decide +kernel

/-- Settles O8: the step depends on `c ^ b` only, and the table lists its values. -/
theorem crcStepIsThePrintedTable : Obligations.CrcStepIsThePrintedTable := by
  intro c b
  rw [crc8Step_eq, crc8Step_zero_eq_table]

/-! ### Linearity -/

@[simp] theorem crc8Shifts_zero (n : Nat) : crc8Shifts n 0#8 = 0#8 := by
  simpa using crc8Shifts_xor n 0#8 0#8

theorem crc8Step_xor (c d a b : Byte) : crc8Step (c ^^^ d) (a ^^^ b) = crc8Step c a ^^^ crc8Step d b := by
  have hperm : c ^^^ d ^^^ (a ^^^ b) = (c ^^^ a) ^^^ (d ^^^ b) := by ac_rfl
  rw [crc8Step, hperm, crc8Shifts_xor]
  rfl

theorem crc8From_xor {xs ys : List Byte} (h : xs.length = ys.length) (c d : Byte) :
    crc8From (c ^^^ d) (List.zipWith (fun x y => x ^^^ y) xs ys) = crc8From c xs ^^^ crc8From d ys := by
  induction xs generalizing ys c d with
  | nil =>
    cases ys with
    | nil => rfl
    | cons y ys => cases h
  | cons x xs ih =>
    cases ys with
    | nil => cases h
    | cons y ys =>
      rw [List.zipWith_cons_cons, crc8From_cons, crc8Step_xor, ih (Nat.succ.inj h)]
      rfl

/-- Settles O13: the initial value is 00, so it is the XOR of two initial values. -/
theorem crcIsLinear : Obligations.CrcIsLinear :=
  fun _ _ h => crc8From_xor h Config.crcInit Config.crcInit

/-! ### The self-check -/

theorem crc8_append (xs ys : List Byte) : crc8 (xs ++ ys) = crc8From (crc8 xs) ys := crc8From_append _ _ _

theorem crc8_append_crc8 (bs : List Byte) : crc8 (bs ++ [crc8 bs]) = 0#8 := by
  rw [crc8_append, crc8From_cons, crc8From_nil, crc8Step, BitVec.xor_self, crc8Shifts_zero]

/-- Settles O14: a frame is its body followed by the body's CRC. -/
theorem crcOfAFrameIsZero : Obligations.CrcOfAFrameIsZero :=
  ⟨crc8_append_crc8, fun kind p => crc8_append_crc8 (frameBody kind p)⟩

/-! ### Injectivity -/

/-- POLY is odd and a shifted byte is even, so only a byte without bit 7 can be shifted to 00, and that byte is 00. -/
theorem eq_zero_of_crc8Shift_eq_zero {x : Byte} (h : crc8Shift x = 0#8) : x = 0#8 := by
  cases htop : x.getLsbD 7
  · rw [crc8Shift_of_bit7_clear htop] at h
    rw [← BitVec.msb_eq_getLsbD_last (w := 8), BitVec.msb_eq_false_iff_two_mul_lt] at htop
    bv_omega
  · have hodd : (crc8Shift x).getLsbD 0 = true := by
      rw [crc8Shift_of_bit7_set htop, BitVec.getLsbD_xor, BitVec.getLsbD_shiftLeft]
      rfl
    rw [h] at hodd
    cases hodd

theorem crc8Shift_injective : Function.Injective crc8Shift := by
  intro x y h
  have hzero : crc8Shift (x ^^^ y) = 0#8 := by rw [crc8Shift_xor, h, BitVec.xor_self]
  exact BitVec.xor_eq_zero_iff.mp (eq_zero_of_crc8Shift_eq_zero hzero)

theorem crc8Shifts_injective (n : Nat) : Function.Injective (crc8Shifts n) := by
  induction n with
  | zero => exact fun _ _ h => h
  | succ n ih => exact fun _ _ h => crc8Shift_injective (ih h)

theorem crc8Shifts_eq_zero_iff {n : Nat} {c : Byte} : crc8Shifts n c = 0#8 ↔ c = 0#8 := by
  rw [← crc8Shifts_zero n, (crc8Shifts_injective n).eq_iff, crc8Shifts_zero]

/-- The same bytes keep different accumulators apart. -/
theorem crc8From_inj {c d : Byte} (bs : List Byte) : crc8From c bs = crc8From d bs ↔ c = d := by
  induction bs generalizing c d with
  | nil => rfl
  | cons b bs ih =>
    rw [crc8From_cons, crc8From_cons, ih, crc8Step, crc8Step, (crc8Shifts_injective 8).eq_iff, BitVec.xor_left_inj]

/-! ### Error detection -/

theorem xor_eq_left_iff (c e : Byte) : c ^^^ e = c ↔ e = 0#8 := by
  have h := BitVec.xor_right_inj (x := e) (y := 0#8) c
  rwa [BitVec.xor_zero] at h

/-- An error pattern `es` over the bytes `ms`, between any others, goes unnoticed exactly when its own CRC is 00. -/
theorem crc8_error_iff {ms es : List Byte} (h : ms.length = es.length) (xs ys : List Byte) :
    crc8 (xs ++ List.zipWith (fun x y => x ^^^ y) ms es ++ ys) = crc8 (xs ++ ms ++ ys) ↔ crc8 es = 0#8 := by
  have herr : crc8From (crc8 xs) (List.zipWith (fun x y => x ^^^ y) ms es) = crc8From (crc8 xs) ms ^^^ crc8 es := by
    have hxor := crc8From_xor h (crc8 xs) 0#8
    rwa [BitVec.xor_zero] at hxor
  rw [crc8_append, crc8_append _ ys, crc8From_inj, crc8_append, crc8_append, herr, xor_eq_left_iff]

theorem crc8_singleton (e : Byte) : crc8 [e] = crc8Shifts 8 e := congrArg (crc8Shifts 8) BitVec.zero_xor

theorem crc8_singleton_eq_zero_iff (e : Byte) : crc8 [e] = 0#8 ↔ e = 0#8 := by
  rw [crc8_singleton, crc8Shifts_eq_zero_iff]

theorem crc8_pair (h l : Byte) : crc8 [h, l] = crc8Shifts 8 (crc8Shifts 8 h ^^^ l) :=
  congrArg (fun c => crc8Shifts 8 (c ^^^ l)) (crc8_singleton h)

theorem crc8Shift_crc8Shifts (n : Nat) (c : Byte) : crc8Shift (crc8Shifts n c) = crc8Shifts (n + 1) c := by
  induction n generalizing c with
  | zero => rfl
  | succ n ih => exact ih _

/-- The bit a byte loses when it is shifted left, in the place it takes in the byte before. -/
def carryOut (l : Byte) : Byte := if l.getLsbD 7 then 1#8 else 0#8

/-- POLY is x^8 reduced: what the carried bit becomes eight iterations later. -/
theorem crc8Shift_eq_carryOut (l : Byte) : crc8Shift l = crc8Shifts 8 (carryOut l) ^^^ l <<< 1 := by
  cases h : l.getLsbD 7
  · rw [crc8Shift_of_bit7_clear h, carryOut, h, if_neg Bool.false_ne_true, crc8Shifts_zero, BitVec.zero_xor]
  · rw [crc8Shift_of_bit7_set h, carryOut, if_pos h, BitVec.xor_comm]
    rfl

/-- Multiplying two bytes by x multiplies their remainder by x, while no bit is lost. -/
theorem crc8_pair_shiftLeft {h : Byte} (hh : h.getLsbD 7 = false) (l : Byte) :
    crc8 [h <<< 1 ^^^ carryOut l, l <<< 1] = crc8Shift (crc8 [h, l]) := by
  have hcomm : crc8Shift (crc8Shifts 8 h) = crc8Shifts 8 (h <<< 1) := by
    rw [crc8Shift_crc8Shifts, crc8Shifts, crc8Shift_of_bit7_clear hh]
  calc crc8 [h <<< 1 ^^^ carryOut l, l <<< 1]
      = crc8Shifts 8 (crc8Shifts 8 (h <<< 1) ^^^ (crc8Shifts 8 (carryOut l) ^^^ l <<< 1)) := by
        rw [crc8_pair, crc8Shifts_xor 8 (h <<< 1), BitVec.xor_assoc]
    _ = crc8Shifts 8 (crc8Shift (crc8Shifts 8 h ^^^ l)) := by rw [← crc8Shift_eq_carryOut, ← hcomm, crc8Shift_xor]
    _ = crc8Shift (crc8 [h, l]) := by rw [crc8_pair, crc8Shift_crc8Shifts]; rfl

/-- The two bytes of a half word, the most significant first. -/
def bigEndianBytes (w : Half) : List Byte := [w.extractLsb' 8 8, w.extractLsb' 0 8]

theorem extractLsb'_low_shiftLeft (w : Half) : (w <<< 1).extractLsb' 0 8 = w.extractLsb' 0 8 <<< 1 := by
  apply BitVec.eq_of_toNat_eq
  simp [Nat.shiftLeft_eq]

theorem extractLsb'_high_shiftLeft (w : Half) :
    (w <<< 1).extractLsb' 8 8 = w.extractLsb' 8 8 <<< 1 ^^^ carryOut (w.extractLsb' 0 8) := by
  apply BitVec.eq_of_getLsbD_eq
  intro i hi
  cases i with
  | zero => cases h : w[7] <;> simp [carryOut, h]
  | succ i =>
    have hi8 : i < 8 := by omega
    have hread : 8 + i < 16 := by omega
    have hwrite : 8 + (i + 1) < 16 := by omega
    cases h : w[7] <;> simp [carryOut, h, hi8, hread, hwrite]

theorem crc8_bigEndianBytes_shiftLeft_one {w : Half} (h : w.getLsbD 15 = false) :
    crc8 (bigEndianBytes (w <<< 1)) = crc8Shift (crc8 (bigEndianBytes w)) := by
  have hh : (w.extractLsb' 8 8).getLsbD 7 = false := by simpa using h
  rw [bigEndianBytes, extractLsb'_high_shiftLeft, extractLsb'_low_shiftLeft, crc8_pair_shiftLeft hh]
  rfl

theorem bigEndianBytes_setWidth (e : Byte) : bigEndianBytes (e.setWidth 16) = [0#8, e] := by
  have hhigh : (e.setWidth 16).extractLsb' 8 8 = 0#8 := by ext; simp
  have hlow : (e.setWidth 16).extractLsb' 0 8 = e := by
    rw [BitVec.extractLsb'_setWidth_of_le (by decide), BitVec.extractLsb'_eq_self]
  rw [bigEndianBytes, hhigh, hlow]

/-- Within two bytes the CRC of a shifted byte is the CRC of that byte, iterated on as often as it was shifted. -/
theorem crc8_bigEndianBytes_shiftLeft (e : Byte) {n : Nat} (h : n ≤ 8) :
    crc8 (bigEndianBytes (e.setWidth 16 <<< n)) = crc8Shifts n (crc8 [e]) := by
  induction n with
  | zero =>
    rw [BitVec.shiftLeft_zero, bigEndianBytes_setWidth]
    rfl
  | succ n ih =>
    have htop : (e.setWidth 16 <<< n).getLsbD 15 = false := by
      have he : e.getLsbD (15 - n) = false := BitVec.getLsbD_of_ge e _ (by omega)
      simp [he]
    rw [BitVec.shiftLeft_add, crc8_bigEndianBytes_shiftLeft_one htop, ih (Nat.le_of_succ_le h), crc8Shift_crc8Shifts]

/-- Settles O15: no burst of at most 8 bits has CRC 00, since the CRC of a shifted byte is the shifted CRC of that byte. -/
theorem crcDetectsShortBursts : Obligations.CrcDetectsShortBursts := by
  refine ⟨fun xs ys a e he heq => he ?_, fun xs ys a b e sh he hsh heq => he ?_⟩
  · exact (crc8_singleton_eq_zero_iff e).mp ((crc8_error_iff (ms := [a]) (es := [e]) rfl xs ys).mp heq)
  · have hburst : crc8 (bigEndianBytes (e.setWidth 16 <<< sh)) = 0#8 :=
      (crc8_error_iff (ms := [a, b]) (es := bigEndianBytes (e.setWidth 16 <<< sh)) rfl xs ys).mp heq
    rw [crc8_bigEndianBytes_shiftLeft e hsh, crc8Shifts_eq_zero_iff] at hburst
    exact (crc8_singleton_eq_zero_iff e).mp hburst

end Sys2Proof
end

section
/-! The events on the CRC register in a live state (40_crc.md R82 to R84), and the runs built from them (R64). -/

namespace Sys2Proof.Machine

theorem exec_crcClr_live {s : State} (h : s.Live) :
    exec .crcClr s = .next { s with crc := 0x00#8, history := s.history ++ [.resp 0x01#8 .ok []] } :=
  congrArg Host.Outcome.next (State.atEvent_live h _)

theorem exec_crcUpd_live {s : State} (h : s.Live) (b : Byte) :
    exec (.crcUpd b) s = .next { s with crc := crc8Step s.crc b, history := s.history ++ [.resp 0x02#8 .ok []] } :=
  congrArg Host.Outcome.next (State.atEvent_live h _)

theorem exec_crcRd_live {s : State} (h : s.Live) :
    exec .crcRd s = .next { s with history := s.history ++ [.resp 0x03#8 .ok [s.crc]] } :=
  congrArg Host.Outcome.next (State.atEvent_live h _)

/-- One CRC_UPD per byte runs the loop of R81 from the accumulator's value, each answered OK. -/
theorem runAll_crcUpd (bs : List Byte) (is : List Instr) {s : State} (h : s.Live) :
    runAll (bs.map .crcUpd ++ is) s = runAll is { s with
      crc := crc8From s.crc bs
      history := s.history ++ List.replicate bs.length (.resp 0x02#8 .ok []) } := by
  induction bs generalizing s with
  | nil => simp
  | cons b bs ih =>
    rw [List.map_cons, List.cons_append, runAll_cons_of_next (exec_crcUpd_live h b), ih (by exact h)]
    simp [List.replicate_succ]

/-- R64, R85(a): CRC_BLOCK from any live state. -/
theorem runAll_crcBlock (bs : List Byte) {s : State} (h : s.Live) :
    runAll (crcBlock bs) s = .next { s with
      crc := crc8 bs
      history := s.history ++ [.resp 0x01#8 .ok []] ++ List.replicate bs.length (.resp 0x02#8 .ok []) ++
        [.resp 0x03#8 .ok [crc8 bs]] } := by
  rw [crcBlock, List.cons_append, runAll_cons_of_next (exec_crcClr_live h), runAll_crcUpd bs _ (by exact h),
    runAll_cons_of_next (exec_crcRd_live (by exact h))]
  rfl

/-- Settles O12. -/
theorem crcBlockComputesTheCrc : Obligations.CrcBlockComputesTheCrc := fun bs _ h => runAll_crcBlock bs h

/-- Settles O9: the example is a run of three bytes from accumulator 00. -/
theorem crcUpdFeedsOneByte : Obligations.CrcUpdFeedsOneByte := by
  refine ⟨fun _ => rfl, fun b s h => exec_crcUpd_live h b, fun s h hcrc => ?_⟩
  have hexample : crc8From s.crc [0xAA#8, 0x02#8, 0x00#8] = 0xE5#8 := by rw [hcrc]; decide +kernel
  exact ⟨_, runAll_crcUpd [0xAA#8, 0x02#8, 0x00#8] [] h, hexample⟩

/-- Behind a closed gate an event that came once changes nothing when it comes again. -/
theorem State.atEvent_atEvent_of_not_live {s : State} (h : ¬ s.Live) (e : State → State) :
    (s.atEvent e).atEvent e = s.atEvent e := by
  rcases s.atEvent_cases e with ⟨-, he⟩ | ⟨-, -, he⟩ | ⟨hlive, -⟩
  · rw [he, he]
  · rw [he, State.atEvent_faulted (by simp)]
  · exact absurd hlive h

/-- Settles O10: CRC is 00 after both where the gate is open, and where it is closed the second has no effect. -/
theorem crcClrRestartsTheGenerator : Obligations.CrcClrRestartsTheGenerator := by
  refine ⟨rfl, fun s h => exec_crcClr_live h, fun s t u hst htu => ?_⟩
  by_cases hlive : s.Live
  · cases (exec_crcClr_live hlive).symm.trans hst
    cases (exec_crcClr_live (by exact hlive)).symm.trans htu
    rfl
  · cases hst
    cases htu
    exact congrArg State.crc (State.atEvent_atEvent_of_not_live hlive _)

/-- Settles O11: RST clears CRC, and CRC_BLOCK ends with the read. -/
theorem crcRdReadsTheGenerator : Obligations.CrcRdReadsTheGenerator := by
  refine ⟨rfl, fun s h => exec_crcRd_live h, fun s hf => ?_, fun s h => ?_⟩
  · have hlive : s.resetRegisters.Live := ⟨hf, rfl⟩
    exact ⟨_, by rw [runAll_cons_of_next (exec_rst_live hf), runAll_cons_of_next (exec_crcRd_live hlive), runAll], rfl⟩
  · have hexample : crc8 [0xAA#8, 0x01#8, 0x00#8] = 0xDA#8 := by decide +kernel
    refine ⟨_, runAll_crcBlock [0xAA#8, 0x01#8, 0x00#8] h, ?_⟩
    rw [List.getLast?_concat, hexample]

end Sys2Proof.Machine
end

section
/-! The count in front of a byte list (30_encoding.md R57), and the CRC of a list with one byte changed (40_crc.md R85). -/

namespace Sys2Proof

theorem le16_ofNat (n : Nat) : le16 (BitVec.ofNat 16 n) = [BitVec.ofNat 8 n, BitVec.ofNat 8 (n / 256)] := by
  have hlow : (BitVec.ofNat 16 n).extractLsb' 0 8 = BitVec.ofNat 8 n := by
    apply BitVec.eq_of_toNat_eq
    simp
  have hhigh : (BitVec.ofNat 16 n).extractLsb' 8 8 = BitVec.ofNat 8 (n / 256) := by
    apply BitVec.eq_of_toNat_eq
    simp only [BitVec.extractLsb'_toNat, BitVec.toNat_ofNat, Nat.shiftRight_eq_div_pow]
    omega
  rw [le16, hlow, hhigh]

theorem encodeCounted_eq (bs : List Byte) :
    encodeCounted bs = BitVec.ofNat 8 bs.length :: BitVec.ofNat 8 (bs.length / 256) :: bs := by
  rw [encodeCounted, le16_ofNat]
  rfl

theorem getD_of_lt {bs : List Byte} {n : Nat} (h : n < bs.length) {d : Byte} : bs.getD n d = bs[n] := by
  rw [List.getD_eq_getElem?_getD, List.getElem?_eq_getElem h, Option.getD_some]

theorem getD_set_of_ne (bs : List Byte) {j n : Nat} (h : j ≠ n) (b d : Byte) : (bs.set j b).getD n d = bs.getD n d := by
  rw [List.getD_eq_getElem?_getD, List.getElem?_set_ne h, ← List.getD_eq_getElem?_getD]

/-- R85(e): a nonzero error in one byte changes the CRC. -/
theorem crc8_set_xor_ne {bs : List Byte} {j : Nat} (hj : j < bs.length) {e : Byte} (he : e ≠ 0#8) :
    crc8 (bs.set j (bs.getD j 0#8 ^^^ e)) ≠ crc8 bs := by
  have hset : bs.set j (bs.getD j 0#8 ^^^ e) = bs.take j ++ [bs[j] ^^^ e] ++ bs.drop (j + 1) := by
    rw [getD_of_lt hj, List.set_eq_take_append_cons_drop, if_pos hj, List.append_assoc]
    rfl
  have hsplit : bs.take j ++ [bs[j]] ++ bs.drop (j + 1) = bs := by
    rw [List.take_append_getElem, List.take_append_drop]
  have hne := crcDetectsShortBursts.1 (bs.take j) (bs.drop (j + 1)) bs[j] e he
  rwa [← hset, hsplit] at hne

theorem one_shiftLeft_ne_zero {i : Nat} (h : i < 8) : (1#8 <<< i) ≠ 0#8 := by
  intro heq
  have hbit := congrArg (fun b => b.getLsbD i) heq
  simp [h] at hbit

/-- R95: the step is injective, so a CRC of 00 means that the last byte is the CRC of those before it. -/
theorem crc8_concat_eq_zero_iff (bs : List Byte) (c : Byte) : crc8 (bs ++ [c]) = 0#8 ↔ crc8 bs = c := by
  rw [crc8_append, crc8From_cons, crc8From_nil, crc8Step, crc8Shifts_eq_zero_iff, BitVec.xor_eq_zero_iff]

end Sys2Proof
end

section
/-! ENC and CHK (41_codec.md R90 to R93), and the advisory bit (R95). -/

namespace Sys2Proof.Machine

/-- Settles O16: the count's bytes are those of the length, and the example is the Stop frame of R52. -/
theorem encBuildsTheFrame : Obligations.EncBuildsTheFrame := by
  refine ⟨fun kind p => ?_, fun kind p s h hp => exec_enc_fits hp h, fun kind p s h hp => exec_enc_tooLarge hp h,
    fun s h => ?_⟩
  · rw [encode, encodeCounted_eq]
    rfl
  · rw [← frameOf_stop]
    exact exec_enc_fits (by decide) h

/-! ### The tests of the checker, in the order of R92 -/

theorem checkFrame_short {bs : List Byte} (h : bs.length < 4) : checkFrame bs = (.truncated, []) := if_pos h

theorem checkFrame_badMarker {bs : List Byte} (h4 : 4 ≤ bs.length) (hm : bs.getD 0 0#8 ≠ Config.marker) :
    checkFrame bs = (.badMarker, []) := by
  rw [checkFrame, if_neg (Nat.not_lt.mpr h4), if_pos hm]

theorem checkFrame_incomplete {bs : List Byte} (h4 : 4 ≤ bs.length) (hm : bs.getD 0 0#8 = Config.marker)
    (hl : bs.length < frameLength (bs.getD 2 0#8)) : checkFrame bs = (.truncated, []) := by
  rw [checkFrame, if_neg (Nat.not_lt.mpr h4), if_neg (not_not_intro hm)]
  exact if_pos hl

/-- Where the declared length fits, the checksum decides, and the payload is returned either way. -/
theorem checkFrame_complete {bs : List Byte} (hm : bs.getD 0 0#8 = Config.marker)
    (hl : frameLength (bs.getD 2 0#8) ≤ bs.length) :
    checkFrame bs =
      if crc8 (bs.take (3 + (bs.getD 2 0#8).toNat)) = bs.getD (3 + (bs.getD 2 0#8).toNat) 0#8 then
        (.ok, [bs.getD 1 0#8, 0x00#8, bs.getD 2 0#8] ++ slice 3 (3 + (bs.getD 2 0#8).toNat) bs)
      else (.checksumFailed, [0x03#8, 0x01#8, bs.getD 2 0#8] ++ slice 3 (3 + (bs.getD 2 0#8).toNat) bs) := by
  have h4 : 4 ≤ bs.length := by
    rw [frameLength] at hl
    omega
  rw [checkFrame, if_neg (Nat.not_lt.mpr h4), if_neg (not_not_intro hm)]
  exact (if_neg (Nat.not_lt.mpr hl)).trans (ite_not _ _ _)

/-- The checker on a frame of any checksum byte, whatever bytes follow (R93). -/
theorem checkFrame_frameWith (kind c : Byte) {p : List Byte} (hp : p.length ≤ 255) (more : List Byte) :
    checkFrame (frameWith kind p c ++ more) =
      if crc8 (frameBody kind p) ≠ c then
        (.checksumFailed, [0x03#8, 0x01#8, BitVec.ofNat 8 p.length] ++ p)
      else (.ok, [kind, 0x00#8, BitVec.ofNat 8 p.length] ++ p) := by
  rw [frameWith, List.append_assoc]
  exact checkFrame_fits kind _ c (toNat_lengthByte hp).symm more

theorem exec_chk_live {s : State} (h : s.Live) {bs data : List Byte} {st : Status} (hc : checkFrame bs = (st, data)) :
    exec (.chk bs) s = .next { s with history := s.history ++ [.resp 0x11#8 st data] } := by
  simp only [exec, execChk, State.atEvent_live h, hc]
  rfl

/-- Settles O17: the clauses are the branches of the checker, each reached only past the tests before it. -/
theorem chkClassifiesEveryInput : Obligations.ChkClassifiesEveryInput := by
  refine ⟨fun bs => ?_, fun bs s h h4 => exec_chk_live h (checkFrame_short h4), fun m k l rest s h h0 hm => ?_,
    fun k l rest s h h0 hl => ?_, fun k l c p more s h hp hc => ?_, fun k l c p more s h hp hc => ?_⟩
  · rw [encode, encodeCounted_eq]
    rfl
  · have h4 : 4 ≤ (m :: k :: l :: rest).length := Nat.add_le_add_right h0 3
    exact exec_chk_live h (checkFrame_badMarker h4 hm)
  · have h4 : 4 ≤ (0xAA#8 :: k :: l :: rest).length := Nat.add_le_add_right h0 3
    have hshort : (0xAA#8 :: k :: l :: rest).length < frameLength l := by
      rw [frameLength, List.length_cons, List.length_cons, List.length_cons]
      omega
    exact exec_chk_live h (checkFrame_incomplete h4 rfl hshort)
  · exact exec_chk_live h ((checkFrame_fits k l c hp more).trans (if_pos (Ne.symm hc)))
  · exact exec_chk_live h ((checkFrame_fits k l c hp more).trans (if_neg (not_not_intro hc.symm)))

/-- Settles O18: the checksum of a frame the encoder built is the one the checker computes. -/
theorem checkOfEncodedFrameSucceeds : Obligations.CheckOfEncodedFrameSucceeds := fun kind _ more _ h hp =>
  ⟨_, encodeFrame_ok hp, exec_chk_live h ((checkFrame_frameWith kind _ hp more).trans (if_neg (not_not_intro rfl)))⟩

/-! ### The advisory bit -/

theorem crcOk_frameWith (kind c : Byte) (p : List Byte) : crcOk (frameWith kind p c) = true ↔ c = crc8 (frameBody kind p) := by
  have hbody : slice 0 (frameBody kind p).length (frameBody kind p ++ [c]) = frameBody kind p := List.take_left
  have hlast : (frameBody kind p ++ [c]).getD (frameBody kind p).length 0#8 = c := by simp
  rw [crcOk, frameWith, List.length_append, List.length_singleton, Nat.add_sub_cancel, hbody, hlast, beq_iff_eq, eq_comm]

theorem checkFrame_frameWith_ok_iff (kind c : Byte) {p : List Byte} (hp : p.length ≤ 255) :
    (checkFrame (frameWith kind p c)).1 = .ok ↔ c = crc8 (frameBody kind p) := by
  have hcheck := checkFrame_frameWith kind c hp []
  rw [List.append_nil] at hcheck
  rw [hcheck]
  split
  · next hne => exact iff_of_false nofun (Ne.symm hne)
  · next heq => exact iff_of_true rfl (Decidable.not_not.mp heq).symm

/-- Settles O19: each of the three holds exactly when the checksum byte is the CRC of the bytes before it. -/
theorem advisoryBitAgreesWithCheck : Obligations.AdvisoryBitAgreesWithCheck := by
  intro kind c p hp
  have hbit := crcOk_frameWith kind c p
  have hzero : crc8 (frameWith kind p c) = 0#8 ↔ c = crc8 (frameBody kind p) :=
    (crc8_concat_eq_zero_iff _ c).trans eq_comm
  exact ⟨hbit, hbit.trans hzero.symm, hbit.trans (checkFrame_frameWith_ok_iff kind c hp).symm⟩

/-! ### Single-bit errors -/

/-- An error outside the marker and the length byte leaves a frame of the same length. -/
theorem Delimited.set {f : List Byte} (h : Delimited f) {j : Nat} (h0 : j ≠ 0) (h2 : j ≠ 2) (b : Byte) :
    Delimited (f.set j b) := by
  rw [Delimited, getD_set_of_ne f h0, getD_set_of_ne f h2, List.length_set]
  exact h

/-- The checksum byte ends a delimited list, so the checker's test fails where the CRC of the whole is not 00. -/
theorem checkFrame_of_crc8_ne_zero {f : List Byte} (h : Delimited f) (hcrc : crc8 f ≠ 0#8) :
    checkFrame f =
      (.checksumFailed, [0x03#8, 0x01#8, f.getD 2 0#8] ++ slice 3 (3 + (f.getD 2 0#8).toNat) f) := by
  obtain ⟨hm, hlen⟩ := h
  have hlast : 3 + (f.getD 2 0#8).toNat < f.length := by
    rw [hlen]
    exact Nat.lt_succ_self _
  have hsplit : f.take (3 + (f.getD 2 0#8).toNat) ++ [f.getD (3 + (f.getD 2 0#8).toNat) 0#8] = f := by
    rw [getD_of_lt hlast, List.take_append_getElem]
    exact List.take_of_length_le (Nat.le_of_eq hlen)
  have hbad : crc8 (f.take (3 + (f.getD 2 0#8).toNat)) ≠ f.getD (3 + (f.getD 2 0#8).toNat) 0#8 := by
    rwa [ne_eq, ← crc8_concat_eq_zero_iff, hsplit]
  rw [checkFrame_complete hm (Nat.le_of_eq hlen.symm), if_neg hbad]

/-- Any error within the kind, one payload byte or the checksum byte is reported as a failed checksum. -/
theorem checkFrame_of_changed_byte {kind e : Byte} {p g : List Byte} {j : Nat} (hp : p.length ≤ 255)
    (hj : j < p.length + 4) (h0 : j ≠ 0) (h2 : j ≠ 2) (he : e ≠ 0#8)
    (hg : g = (frameOf kind p).set j ((frameOf kind p).getD j 0#8 ^^^ e)) :
    checkFrame g =
      (.checksumFailed, [0x03#8, 0x01#8, BitVec.ofNat 8 p.length] ++ slice 3 (3 + p.length) g) := by
  have hlength : g.getD 2 0#8 = BitVec.ofNat 8 p.length := by
    rw [hg, getD_set_of_ne _ h2]
    rfl
  have hdelimited : Delimited g := hg ▸ (frameWith_delimited kind _ hp).set h0 h2 _
  have hzero : crc8 (frameOf kind p) = 0#8 := crc8_append_crc8 (frameBody kind p)
  have hcrc : crc8 g ≠ crc8 (frameOf kind p) := by
    rw [hg]
    exact crc8_set_xor_ne (by rwa [frameOf_length]) he
  have hcheck := checkFrame_of_crc8_ne_zero hdelimited (hzero ▸ hcrc)
  rwa [hlength, toNat_lengthByte hp] at hcheck

/-- Settles O20: only an error in the length byte moves the checksum; any other leaves a frame whose CRC is not 00. -/
theorem singleBitErrorOutcomes : Obligations.SingleBitErrorOutcomes := by
  intro kind p g i j s h hp hi hj hg
  have hbit : 1#8 <<< i ≠ 0#8 := one_shiftLeft_ne_zero hi
  have hlen : g.length = p.length + 4 := by rw [hg, List.length_set, frameOf_length]
  have h4 : 4 ≤ g.length := by omega
  have hmarker : j ≠ 0 → g.getD 0 0#8 = Config.marker := fun h0 => by
    rw [hg, getD_set_of_ne _ h0]
    rfl
  refine ⟨fun h0 => ?_, fun hj' => ?_, fun h2 hraised => ?_, fun h2 hlowered => ?_⟩
  · subst h0
    have hflipped : g.getD 0 0#8 = Config.marker ^^^ 1#8 <<< i := by
      rw [hg]
      rfl
    exact exec_chk_live h (checkFrame_badMarker h4 (by rwa [hflipped, ne_eq, xor_eq_left_iff]))
  · exact exec_chk_live h (checkFrame_of_changed_byte hp hj (by omega) (by omega) hbit hg)
  · have hshort : g.length < frameLength (g.getD 2 0#8) := by
      rw [frameLength, hlen]
      omega
    exact exec_chk_live h (checkFrame_incomplete h4 (hmarker (by omega)) hshort)
  · have hfits : frameLength (g.getD 2 0#8) ≤ g.length := by
      rw [frameLength, hlen]
      omega
    rw [checkFrame_complete (hmarker (by omega)) hfits, apply_ite Prod.fst]

end Sys2Proof.Machine
end

section
/-! The transmit primitive (42_engine.md R100) and the events that use it: START, STOP, RECONF, SEND (R101 to R105). -/

namespace Sys2Proof.Machine

/-! ### The transmit primitive -/

@[simp] theorem State.drawAccept_zero (s : State) : s.drawAccept 0 = 0 := Nat.le_zero.mp (s.drawAccept_le 0)

theorem State.sendFrame_of_encodeFrame (s : State) {kind : Byte} {p f : List Byte} (h : encodeFrame kind p = .ok f) :
    s.sendFrame kind p = s.txWrite f := by
  simp only [State.sendFrame, h]

/-- Settles O21: the count is the draw, which `State.drawAccept_le` bounds by the length offered. -/
theorem transmitOffersOnceAndReportsShortWrites : Obligations.TransmitOffersOnceAndReportsShortWrites := by
  refine ⟨fun s bs => ⟨_, s.drawAccept_le _, rfl, rfl⟩, fun s => ?_, fun s kind p f h => s.sendFrame_of_encodeFrame h,
    fun s kind p h => s.sendFrame_ok kind (by omega)⟩
  rw [State.txWrite_status, State.txWrite_state, List.length_nil, s.drawAccept_zero]
  exact ⟨rfl, rfl⟩

/-! ### Listed draws -/

theorem State.drawAccept_of_acceptIn {s : State} {n k : Nat} {ks : List Nat} (h : s.acceptIn = k :: ks) (hk : k ≤ n) :
    s.drawAccept n = k := by
  simp only [State.drawAccept, h, Nat.min_eq_left hk]

theorem State.afterAccept_of_acceptIn {s : State} {k : Nat} {ks : List Nat} (h : s.acceptIn = k :: ks) :
    s.afterAccept = { s with acceptIn := ks } := by
  simp only [State.afterAccept, h]

theorem State.sampleOpen_of_openIn {s : State} {b : Bool} {bs : List Bool} (h : s.openIn = b :: bs) :
    s.sampleOpen = b := by
  simp only [State.sampleOpen, h]

theorem State.afterOpen_of_openIn {s : State} {b : Bool} {bs : List Bool} (h : s.openIn = b :: bs) :
    s.afterOpen = { s with openIn := bs } := by
  simp only [State.afterOpen, h]

/-! ### The consumer is written, then a frame is sent and answered -/

/-- Writing the consumer does not touch the draws. -/
theorem State.setConsumer_afterAccept (s : State) (m : Mode) (tag : Byte) :
    (s.setConsumer m tag).afterAccept = s.afterAccept.setConsumer m tag := by
  cases hs : s.acceptIn <;> simp [State.afterAccept, State.setConsumer, hs]

@[simp] theorem State.setConsumer_drawAccept (s : State) (m : Mode) (tag : Byte) (n : Nat) :
    (s.setConsumer m tag).drawAccept n = s.drawAccept n := rfl

/-- What R101 to R103 end with: MODE and TAG are written, one frame is offered, and the write's status is the answer. -/
theorem State.setConsumer_sendAndRespond (s : State) (m : Mode) (tag op kind : Byte) {p : List Byte}
    (hp : p.length ≤ 255) :
    (s.setConsumer m tag).sendAndRespond op kind p = { s.afterAccept with
      mode := m, tag := tag
      history := s.history ++ [.txWrite (frameOf kind p) (s.drawAccept (p.length + 4)),
        .resp op (writeStatus (p.length + 4) (s.drawAccept (p.length + 4))) []] } := by
  rw [State.sendAndRespond_ok _ op kind hp, State.setConsumer_afterAccept, State.setConsumer_drawAccept]
  simp only [State.respond, State.emit, State.setConsumer, State.afterAccept_history, List.append_assoc,
    List.cons_append, List.nil_append]

/-! ### START and STOP -/

theorem exec_start_closed {s : State} (h : s.Live) (hopen : s.sampleOpen = false) (tag : Byte) :
    exec (.start tag) s = .next { s.afterOpen with
      history := s.history ++ [.resp 0x20#8 .transportNotOpen []] } := by
  simp only [exec, execStart, State.atEvent_live h, hopen, Bool.false_eq_true, if_false, ← s.afterOpen_history]
  rfl

theorem exec_start_open {s : State} (h : s.Live) (hopen : s.sampleOpen = true) (tag : Byte) :
    exec (.start tag) s = .next { s.afterOpen.afterAccept with
      mode := .streaming, tag := tag
      history := s.history ++ [.txWrite [0xAA#8, 0x01#8, 0x00#8, 0xDA#8] (s.afterOpen.drawAccept 4),
        .resp 0x20#8 (writeStatus 4 (s.afterOpen.drawAccept 4)) []] } := by
  have hsent := s.afterOpen.setConsumer_sendAndRespond .streaming tag Op.start Config.cmdGetData (p := []) (by decide)
  rw [frameOf_getData, s.afterOpen_history] at hsent
  simp only [exec, execStart, State.atEvent_live h, hopen, if_true, hsent]
  rfl

/-- Settles O23: the two cases of the sample, and the example by the listed draws. -/
theorem startRegistersTheConsumer : Obligations.StartRegistersTheConsumer := by
  refine ⟨fun _ => rfl, fun tag s h hopen => exec_start_closed h hopen tag,
    fun tag s h hopen => ⟨_, rfl, s.afterOpen.drawAccept_le 4, exec_start_open h hopen tag⟩, fun tag s os ks h ho hk => ?_⟩
  have hk' : { s with openIn := os }.acceptIn = 4 :: ks := hk
  rw [exec_start_open h (State.sampleOpen_of_openIn ho), State.afterOpen_of_openIn ho,
    State.afterAccept_of_acceptIn hk', State.drawAccept_of_acceptIn hk' (Nat.le_refl 4)]
  rfl

theorem exec_stop_live {s : State} (h : s.Live) :
    exec .stop s = .next { s.afterAccept with
      mode := .stopped, tag := 0x00#8
      history := s.history ++ [.txWrite [0xAA#8, 0x02#8, 0x00#8, 0xE5#8] (s.drawAccept 4),
        .resp 0x21#8 (writeStatus 4 (s.drawAccept 4)) []] } := by
  have hsent := s.setConsumer_sendAndRespond .stopped 0x00#8 Op.stop Config.cmdStop (p := []) (by decide)
  rw [frameOf_stop] at hsent
  simp only [exec, execStop, State.atEvent_live h, hsent]
  rfl

/-- Settles O24. -/
theorem stopClearsTheConsumer : Obligations.StopClearsTheConsumer :=
  ⟨rfl, fun s h => ⟨_, rfl, s.drawAccept_le 4, exec_stop_live h⟩⟩

/-! ### The settings -/

/-- One more row in front of a table of codes, where the table has no row for the same setting. -/
theorem ite_code_eq_some_iff {x key code c : Byte} {o : Option Byte} {rows : List (Byte × Byte)}
    (h : o = some c ↔ (x, c) ∈ rows) (hkey : ∀ y, (key, y) ∉ rows) :
    (if x = key then some code else o) = some c ↔ (x, c) ∈ (key, code) :: rows := by
  by_cases hx : x = key
  · subst hx
    simp [hkey, eq_comm]
  · simp [hx, h]

theorem none_eq_some_iff_mem_nil {x c : Byte} : none = some c ↔ (x, c) ∈ [] :=
  iff_of_false nofun List.not_mem_nil

theorem dataBitsCode_eq_some_iff (d c : Byte) : dataBitsCode d = some c ↔ (d, c) ∈ [(7#8, 1#8), (8#8, 2#8)] :=
  ite_code_eq_some_iff (ite_code_eq_some_iff none_eq_some_iff_mem_nil (by simp)) (by simp)

theorem stopBitsCode_eq_some_iff (st c : Byte) :
    stopBitsCode st = some c ↔ (st, c) ∈ [(2#8, 1#8), (3#8, 2#8), (4#8, 3#8)] :=
  ite_code_eq_some_iff (ite_code_eq_some_iff (ite_code_eq_some_iff none_eq_some_iff_mem_nil (by simp)) (by simp)) (by simp)

theorem parityCode_eq_some_iff (p c : Byte) :
    parityCode p = some c ↔ (p, c) ∈ [(0#8, 1#8), (1#8, 2#8), (2#8, 3#8)] :=
  ite_code_eq_some_iff (ite_code_eq_some_iff (ite_code_eq_some_iff none_eq_some_iff_mem_nil (by simp)) (by simp)) (by simp)

theorem flowCode_eq_some_iff (f c : Byte) : flowCode f = some c ↔ (f, c) ∈ [(0#8, 1#8), (1#8, 2#8)] :=
  ite_code_eq_some_iff (ite_code_eq_some_iff none_eq_some_iff_mem_nil (by simp)) (by simp)

/-- Settings are mapped exactly when each of the five fields has a code. -/
theorem mapSettings_eq_ok_iff (baud : Word) (d st p f : Byte) (codes : List Byte) :
    mapSettings baud d st p f = .ok codes ↔
      ∃ bc dc sc pc fc, codes = [bc, dc, sc, pc, fc] ∧ Config.baudCode baud.toNat = some bc ∧
        dataBitsCode d = some dc ∧ stopBitsCode st = some sc ∧ parityCode p = some pc ∧ flowCode f = some fc := by
  constructor
  · unfold mapSettings
    split
    · next bc dc sc pc fc hb hd hs hp hf =>
      rintro ⟨⟩
      exact ⟨bc, dc, sc, pc, fc, rfl, hb, hd, hs, hp, hf⟩
    · rintro ⟨⟩
  · rintro ⟨bc, dc, sc, pc, fc, rfl, hb, hd, hs, hp, hf⟩
    simp only [mapSettings, hb, hd, hs, hp, hf]

/-- Everything the mapping can answer. -/
theorem mapSettings_cases (baud : Word) (d st p f : Byte) :
    (∃ codes, mapSettings baud d st p f = .ok codes) ∨ mapSettings baud d st p f = .error .unmappedSetting := by
  unfold mapSettings
  split
  · exact .inl ⟨_, rfl⟩
  · exact .inr rfl

/-- Settles O26: one table per field, and one answer where a field has no code. -/
theorem settingsMapByTheTables : Obligations.SettingsMapByTheTables := by
  refine ⟨rfl, rfl, fun baud d st p f codes => ?_, fun baud d st p f h =>
    (mapSettings_cases baud d st p f).resolve_left (not_exists.mpr h)⟩
  simp only [mapSettings_eq_ok_iff, dataBitsCode_eq_some_iff, stopBitsCode_eq_some_iff, parityCode_eq_some_iff,
    flowCode_eq_some_iff]

/-! ### RECONF -/

section
variable {s : State} {baud : Word} {d st p f : Byte}

theorem exec_reconf_unmapped (h : s.Live) (hmap : mapSettings baud d st p f = .error .unmappedSetting) :
    exec (.reconf baud d st p f) s = .next { s with
      mode := .idle, tag := 0x00#8, history := s.history ++ [.resp 0x22#8 .unmappedSetting []] } := by
  simp only [exec, execReconf, State.atEvent_live h, hmap]
  rfl

theorem exec_reconf_mapped (h : s.Live) {bc dc sc pc fc : Byte}
    (hmap : mapSettings baud d st p f = .ok [bc, dc, sc, pc, fc]) :
    exec (.reconf baud d st p f) s = .next { s.afterAccept with
      mode := .idle, tag := 0x00#8
      history := s.history ++
        [.txWrite [0xAA#8, 0x03#8, 0x05#8, bc, dc, sc, pc, fc,
            crc8 [0xAA#8, 0x03#8, 0x05#8, bc, dc, sc, pc, fc]] (s.drawAccept 9),
          .resp 0x22#8 (writeStatus 9 (s.drawAccept 9)) []] } := by
  have hfits : [bc, dc, sc, pc, fc].length ≤ 255 := by simp
  simp only [exec, execReconf, State.atEvent_live h, hmap,
    s.setConsumer_sendAndRespond .idle 0x00#8 Op.reconf Config.cmdReconf hfits]
  rfl

end

/-- Settles O25: the two cases of the mapping, and the example by its codes, its checksum and the listed count. -/
theorem reconfClearsThenSendsMappedSettings : Obligations.ReconfClearsThenSendsMappedSettings := by
  refine ⟨fun _ _ _ _ _ => rfl, fun _ _ _ _ _ s h hmap => exec_reconf_unmapped h hmap,
    fun _ _ _ _ _ _ _ _ _ _ s h hmap => ⟨_, rfl, s.drawAccept_le 9, exec_reconf_mapped h hmap⟩, fun s ks h hk => ?_⟩
  have hmap : mapSettings 9600#32 8#8 2#8 0#8 0#8 = .ok [0x01#8, 0x02#8, 0x01#8, 0x01#8, 0x01#8] := rfl
  have hcrc : crc8 [0xAA#8, 0x03#8, 0x05#8, 0x01#8, 0x02#8, 0x01#8, 0x01#8, 0x01#8] = 0xB3#8 := by decide +kernel
  rw [exec_reconf_mapped h hmap, hcrc, State.afterAccept_of_acceptIn hk, State.drawAccept_of_acceptIn hk (Nat.le_refl 9)]
  rfl

/-! ### SEND -/

/-- Settles O27: no bytes leave no choice of count, and the example lists it. -/
theorem sendOffersTheGivenBytes : Obligations.SendOffersTheGivenBytes := by
  refine ⟨fun bs => ?_, fun bs s h => ⟨_, rfl, s.drawAccept_le _, exec_send_live h bs⟩, fun s h => ?_, fun s ks h hk => ?_⟩
  · rw [encode, encodeCounted_eq]
    rfl
  · rw [exec_send_live h, List.length_nil, s.drawAccept_zero]
    rfl
  · rw [exec_send_live h, State.afterAccept_of_acceptIn hk, State.drawAccept_of_acceptIn hk (by simp)]
    rfl

end Sys2Proof.Machine
end

section
/-! TICK and the register reads (42_engine.md R106 to R110). -/

namespace Sys2Proof.Machine

theorem runAll_pair_of_next {i j : Instr} {s t u : State} (hi : exec i s = .next t) (hj : exec j t = .next u) :
    runAll [i, j] s = .next u := by
  rw [runAll_cons_of_next hi, runAll_cons_of_next hj, runAll]

theorem exec_rxByte_live {s : State} (h : s.Live) (b : Byte) : exec (.rxByte b) s = .next (s.receive b) :=
  congrArg Host.Outcome.next (State.atEvent_live h _)

theorem exec_tick_live {s : State} (h : s.Live) : exec .tick s = .next { s with freq := s.fcnt, fcnt := 0#32 } :=
  congrArg Host.Outcome.next (State.atEvent_live h _)

theorem exec_rdMode_live {s : State} (h : s.Live) :
    exec .rdMode s = .next { s with
      history := s.history ++ [.resp 0x40#8 .ok [s.mode.code.setWidth 8, s.tag]] } :=
  congrArg Host.Outcome.next (State.atEvent_live h _)

theorem exec_rdFcnt_live {s : State} (h : s.Live) :
    exec .rdFcnt s = .next { s with history := s.history ++ [.resp 0x41#8 .ok (le32 s.fcnt)] } :=
  congrArg Host.Outcome.next (State.atEvent_live h _)

theorem exec_rdFreq_live {s : State} (h : s.Live) :
    exec .rdFreq s = .next { s with history := s.history ++ [.resp 0x42#8 .ok (le32 s.freq)] } :=
  congrArg Host.Outcome.next (State.atEvent_live h _)

theorem exec_rdRxlen_live {s : State} (h : s.Live) :
    exec .rdRxlen s = .next { s with
      history := s.history ++ [.resp 0x43#8 .ok [BitVec.ofNat 8 s.rxlen, BitVec.ofNat 8 (s.rxlen / 256)]] } := by
  rw [← le16_ofNat]
  exact congrArg Host.Outcome.next (State.atEvent_live h _)

/-- Settles O28: the second TICK copies the counter the first one cleared. -/
theorem tickSnapshotsTheCounter : Obligations.TickSnapshotsTheCounter :=
  ⟨rfl, fun _ h => exec_tick_live h, fun _ h => runAll_pair_of_next (exec_tick_live h) (exec_tick_live (by exact h))⟩

/-- Settles O29: TAG is 00 outside Streaming by R24(b), and after RST by R26. -/
theorem rdModeReadsModeAndTag : Obligations.RdModeReadsModeAndTag := by
  refine ⟨rfl, fun s h => exec_rdMode_live h, fun s h hi hm => ?_, fun s hf => ?_⟩
  · obtain ⟨-, htag, -, -⟩ := hi
    rw [exec_rdMode_live h, htag hm]
  · have hlive : s.resetRegisters.Live := ⟨hf, rfl⟩
    exact ⟨_, runAll_pair_of_next (exec_rst_live hf) (exec_rdMode_live hlive), rfl⟩

/-- The byte that completes a frame counts it: RD_FCNT then reads FCNT + 1 modulo 2^32 (R18). -/
theorem runAll_rxByte_rdFcnt {s : State} (h : s.Live) (hm : s.mode = .streaming) {b : Byte}
    (hf : Delimited (s.rxbuf ++ [b])) :
    ∃ t, runAll [.rxByte b, .rdFcnt] s = .next t ∧
      t.history.getLast? = some (.resp 0x41#8 .ok (le32 (s.fcnt + 1#32))) := by
  have hrx : exec (.rxByte b) s = .next (State.dispatch { s with rxbuf := [] } (s.rxbuf ++ [b])) := by
    rw [exec_rxByte_live h, State.receive_completes hm hf]
  exact ⟨_, runAll_pair_of_next hrx (exec_rdFcnt_live (by exact h)), List.getLast?_concat ..⟩

/-- Settles O30: the reads are `le32` of their register, and the wrap is the dispatch of the frame `AA 02 00 E5`. -/
theorem counterReadsAreLittleEndian : Obligations.CounterReadsAreLittleEndian := by
  refine ⟨rfl, rfl, fun s h => exec_rdFcnt_live h, fun s h => exec_rdFreq_live h, fun s h hc => ?_, fun s h hc => ?_,
    fun s h hm hb hc => ?_⟩
  · rw [exec_rdFcnt_live h, hc]
    rfl
  · refine ⟨_, runAll_pair_of_next (exec_tick_live h) (exec_rdFreq_live (by exact h)), ?_⟩
    show s.history ++ [.resp 0x42#8 .ok (le32 s.fcnt)] = _
    rw [hc]
    rfl
  · have hframe : Delimited (s.rxbuf ++ [0xE5#8]) := by rw [hb]; exact ⟨rfl, rfl⟩
    have hread := runAll_rxByte_rdFcnt h hm hframe
    rw [hc] at hread
    exact hread

/-- Settles O31: one byte AA is no complete frame, so it stays in the buffer. -/
theorem rdRxlenReadsTheLength : Obligations.RdRxlenReadsTheLength := by
  refine ⟨rfl, fun s h => exec_rdRxlen_live h, fun s ⟨_, _, _, hlen⟩ => hlen, fun s h hm hb => ?_⟩
  have hwait : Framing (s.rxbuf ++ [0xAA#8]) := by rw [hb]; exact .inl (by decide)
  have hrx : exec (.rxByte 0xAA#8) s = .next { s with rxbuf := [0xAA#8] } := by
    rw [exec_rxByte_live h, State.receive_waits hm hwait, hb, List.nil_append]
  exact ⟨_, runAll_pair_of_next hrx (exec_rdRxlen_live (by exact h)), by simp [State.rxlen]⟩

end Sys2Proof.Machine
end

section
/-! The extraction loop as a function of the state (43_rx_sync.md R130, R132): run to its stop after each byte of a chunk or
once after the last, it ends in the same state. -/

namespace Sys2Proof.Machine

/-! ### The loop, run to its stop -/

/-- The loop of R130 with as many turns as the buffer has bytes, which is enough for it to stop. -/
def State.drain (s : State) : State := s.rxLoop s.rxlen

/-- What the loop finds in front of a buffer: nothing to do, a byte to drop, or a complete frame. -/
theorem framing_or_unmarked_or_complete (buf : List Byte) :
    Framing buf ∨ (3 ≤ buf.length ∧ buf.getD 0 0#8 ≠ Config.marker) ∨
      (3 ≤ buf.length ∧ buf.getD 0 0#8 = Config.marker ∧ frameLength (buf.getD 2 0#8) ≤ buf.length) := by
  by_cases hshort : buf.length < 3
  · exact .inl (.inl hshort)
  have h3 := Nat.not_lt.mp hshort
  by_cases hm : buf.getD 0 0#8 = Config.marker
  · by_cases hl : buf.length < frameLength (buf.getD 2 0#8)
    · exact .inl (.inr ⟨hm, hl⟩)
    · exact .inr (.inr ⟨h3, hm, Nat.not_lt.mp hl⟩)
  · exact .inr (.inl ⟨h3, hm⟩)

theorem frameLength_pos (l : Byte) : 0 < frameLength l := Nat.succ_pos _

theorem State.length_drop_lt_rxlen {s : State} (h : 3 ≤ s.rxlen) {n : Nat} (hn : 0 < n) :
    (s.rxbuf.drop n).length < s.rxlen := by
  rw [List.length_drop]
  exact Nat.sub_lt (Nat.zero_lt_of_lt h) hn

theorem State.rxLoop_of_framing {s : State} (h : Framing s.rxbuf) (fuel : Nat) : s.rxLoop fuel = s := by
  cases fuel with
  | zero => rfl
  | succ fuel => exact State.rxLoop_framing h fuel

/-- Turns beyond the length of the buffer change nothing: every turn that goes on removes a byte. -/
theorem State.rxLoop_fuel {m n : Nat} {s : State} (hm : s.rxlen ≤ m) (hn : s.rxlen ≤ n) : s.rxLoop m = s.rxLoop n := by
  induction m generalizing n s with
  | zero =>
    have hshort : s.rxlen < 3 := by omega
    rw [State.rxLoop_short hshort, State.rxLoop_short hshort]
  | succ m ih =>
    rcases framing_or_unmarked_or_complete s.rxbuf with hf | ⟨h3, hmark⟩ | ⟨h3, hmark, hl⟩
    · rw [State.rxLoop_of_framing hf, State.rxLoop_of_framing hf]
    all_goals
      change 3 ≤ s.rxlen at h3
      obtain ⟨n, rfl⟩ := Nat.exists_eq_succ_of_ne_zero (show n ≠ 0 by omega)
    · have hlt := State.length_drop_lt_rxlen h3 Nat.one_pos
      rw [State.rxLoop_drop h3 hmark, State.rxLoop_drop h3 hmark]
      exact ih (Nat.le_of_lt_succ (Nat.lt_of_lt_of_le hlt hm)) (Nat.le_of_lt_succ (Nat.lt_of_lt_of_le hlt hn))
    · have hlt := State.length_drop_lt_rxlen h3 (frameLength_pos (s.rxbuf.getD 2 0#8))
      rw [State.rxLoop_frame h3 hmark hl, State.rxLoop_frame h3 hmark hl]
      exact ih (Nat.le_of_lt_succ (Nat.lt_of_lt_of_le hlt hm)) (Nat.le_of_lt_succ (Nat.lt_of_lt_of_le hlt hn))

theorem State.rxLoop_eq_drain {n : Nat} {s : State} (h : s.rxlen ≤ n) : s.rxLoop n = s.drain :=
  State.rxLoop_fuel h (Nat.le_refl _)

theorem State.drain_framing {s : State} (h : Framing s.rxbuf) : s.drain = s :=
  State.rxLoop_of_framing h _

theorem State.drain_unmarked {s : State} (h : 3 ≤ s.rxlen) (hm : s.rxbuf.getD 0 0#8 ≠ Config.marker) :
    s.drain = State.drain { s with rxbuf := s.rxbuf.drop 1 } := by
  rw [← State.rxLoop_eq_drain (Nat.le_succ _), State.rxLoop_drop h hm]
  exact State.rxLoop_eq_drain (by simp [State.rxlen])

theorem State.drain_complete {s : State} (h : 3 ≤ s.rxlen) (hm : s.rxbuf.getD 0 0#8 = Config.marker)
    (hl : frameLength (s.rxbuf.getD 2 0#8) ≤ s.rxlen) :
    s.drain = State.drain (State.dispatch { s with rxbuf := s.rxbuf.drop (frameLength (s.rxbuf.getD 2 0#8)) }
      (s.rxbuf.take (frameLength (s.rxbuf.getD 2 0#8)))) := by
  rw [← State.rxLoop_eq_drain (Nat.le_succ _), State.rxLoop_frame h hm hl]
  exact State.rxLoop_eq_drain (by simp [State.rxlen])

/-- Exactly one frame in the buffer is dispatched whole. -/
theorem State.drain_delimited {s : State} (h : Delimited s.rxbuf) :
    s.drain = State.dispatch { s with rxbuf := [] } s.rxbuf := by
  obtain ⟨hm, hlen⟩ := h
  have h3 : 3 ≤ s.rxlen := by
    rw [State.rxlen, hlen, frameLength]
    omega
  rw [State.drain_complete h3 hm (Nat.le_of_eq hlen.symm), ← hlen, List.drop_length, List.take_length]
  exact State.drain_framing (.inl (by simp))

/-! ### Bytes that come behind the buffer -/

/-- The state with the bytes `ys` behind its buffer. -/
def State.feed (s : State) (ys : List Byte) : State := { s with rxbuf := s.rxbuf ++ ys }

@[simp] theorem State.feed_rxbuf (s : State) (ys : List Byte) : (s.feed ys).rxbuf = s.rxbuf ++ ys := rfl

@[simp] theorem State.feed_rxlen (s : State) (ys : List Byte) : (s.feed ys).rxlen = s.rxlen + ys.length :=
  List.length_append

@[simp] theorem State.feed_nil (s : State) : s.feed [] = s := by rw [State.feed, List.append_nil]

theorem State.feed_append (s : State) (xs ys : List Byte) : s.feed (xs ++ ys) = (s.feed xs).feed ys := by
  simp only [State.feed, List.append_assoc]

/-- Bytes that come later do not change what the loop has done: it reads no byte behind the frame it takes. -/
theorem State.drain_feed (s : State) (ys : List Byte) : (s.feed ys).drain = (s.drain.feed ys).drain := by
  induction hn : s.rxlen using Nat.strongRecOn generalizing s with
  | ind n ih =>
    subst hn
    rcases framing_or_unmarked_or_complete s.rxbuf with hf | ⟨h3, hm⟩ | ⟨h3, hm, hl⟩
    · rw [State.drain_framing hf]
    all_goals
      have h3' : 3 ≤ (s.feed ys).rxlen := by rw [State.feed_rxlen]; exact Nat.le_add_right_of_le h3
      have h0 : (s.feed ys).rxbuf.getD 0 0#8 = s.rxbuf.getD 0 0#8 := getD_append_of_lt (by omega) ys _
    · have hturn : (s.feed ys).drain = (State.feed { s with rxbuf := s.rxbuf.drop 1 } ys).drain := by
        rw [State.drain_unmarked h3' (h0 ▸ hm), State.feed_rxbuf, List.drop_append_of_le_length (by omega)]
        rfl
      rw [hturn, State.drain_unmarked h3 hm]
      exact ih _ (State.length_drop_lt_rxlen h3 Nat.one_pos) _ rfl
    · have h2 : (s.feed ys).rxbuf.getD 2 0#8 = s.rxbuf.getD 2 0#8 := getD_append_of_lt (by omega) ys _
      have hturn : (s.feed ys).drain =
          (State.feed (State.dispatch { s with rxbuf := s.rxbuf.drop (frameLength (s.rxbuf.getD 2 0#8)) }
            (s.rxbuf.take (frameLength (s.rxbuf.getD 2 0#8)))) ys).drain := by
        rw [State.drain_complete h3' (h0 ▸ hm) (by rw [h2, State.feed_rxlen]; exact Nat.le_add_right_of_le hl), h2,
          State.feed_rxbuf, List.drop_append_of_le_length hl, List.take_append_of_le_length hl]
        rfl
      rw [hturn, State.drain_complete h3 hm hl]
      exact ih _ (State.length_drop_lt_rxlen h3 (frameLength_pos _)) _ rfl

/-- Bytes without a marker in front of three or more bytes are dropped. -/
theorem State.drain_garbage (s : State) {garbage buf : List Byte} (hg : Config.marker ∉ garbage) (hb : 3 ≤ buf.length) :
    State.drain { s with rxbuf := garbage ++ buf } = State.drain { s with rxbuf := buf } := by
  induction garbage with
  | nil => rfl
  | cons g gs ih =>
    rw [List.mem_cons, not_or] at hg
    obtain ⟨hne, hgs⟩ := hg
    have h3 : 3 ≤ (g :: gs ++ buf).length := by
      rw [List.length_append]
      omega
    rw [State.drain_unmarked (s := { s with rxbuf := g :: gs ++ buf }) h3 (Ne.symm hne)]
    exact ih hgs

/-! ### Received bytes -/

theorem State.receive_eq_drain {s : State} (hm : s.mode = .streaming) (hcap : s.rxlen ≠ 259) (b : Byte) :
    s.receive b = (s.feed [b]).drain := by
  rw [State.receive_streaming hm hcap]
  exact State.rxLoop_eq_drain (s := s.feed [b]) (Nat.le_of_eq (s.feed_rxlen [b]))

/-- In Streaming R24 asks for the framing of the buffer alone. -/
theorem State.inv_of_framing {s : State} (hm : s.mode = .streaming) (h : Framing s.rxbuf) : s.Inv :=
  s.inv_iff.mpr ⟨fun hne => absurd hm hne, h⟩

theorem State.receive_mode (s : State) (b : Byte) : (s.receive b).mode = s.mode := (s.receive_received b).mode_tag.1

/-- Byte-by-byte delivery is the loop run once over the buffer with the whole chunk behind it (R132). -/
theorem State.receiveAll_eq_drain {s : State} (hlive : s.Live) (hm : s.mode = .streaming) (hi : s.Inv) (bs : List Byte) :
    s.receiveAll bs = (s.feed bs).drain := by
  induction bs generalizing s with
  | nil =>
    obtain ⟨-, -, hframing, -⟩ := hi
    rw [State.receiveAll, s.feed_nil, State.drain_framing hframing]
  | cons b bs ih =>
    calc s.receiveAll (b :: bs)
      _ = (s.receive b).receiveAll bs := by rw [State.receiveAll, State.atEvent_live hlive]
      _ = ((s.receive b).feed bs).drain :=
        ih (State.receive_live hlive hi b) ((s.receive_mode b).trans hm) (State.receive_inv hi b)
      _ = ((s.feed [b]).feed bs).drain := by rw [State.receive_eq_drain hm hi.rxlen_ne_cap, ← State.drain_feed]
      _ = (s.feed (b :: bs)).drain := by rw [← State.feed_append, List.singleton_append]

/-- Settles O46: the loop over the whole chunk does to the state what the source's loop says. -/
theorem chunkedDeliveryMatchesTheWholeChunkLoop : Obligations.ChunkedDeliveryMatchesTheWholeChunkLoop := by
  intro bs s hlive hm hi
  rw [runAll_rxChunk, State.receiveAll_eq_drain hlive hm hi, State.drain, State.rxLoop_eq_extractAll]
  rfl

/-- Settles O47: the garbage is dropped, and the frame is then the whole buffer. -/
theorem garbageBeforeAFrameIsDropped : Obligations.GarbageBeforeAFrameIsDropped := by
  intro garbage p kind c s hlive hm hb hg hp
  have hi : s.Inv := State.inv_of_framing hm (.inl (by simp [hb]))
  have hlen : 3 ≤ (frameWith kind p c).length := by
    rw [frameWith_length]
    omega
  rw [runAll_rxChunk, State.receiveAll_eq_drain hlive hm hi, State.feed, hb, List.nil_append, s.drain_garbage hg hlen,
    State.drain_delimited (frameWith_delimited kind c hp)]
  rfl

end Sys2Proof.Machine
end

section
/-! What one received byte does (43_rx_sync.md R130, R133, R137), and a stale header that takes the next bytes (R134). -/

namespace Sys2Proof.Machine

/-- Settles O42: the machine's loop is the source's. -/
theorem rxByteRunsTheExtractionLoop : Obligations.RxByteRunsTheExtractionLoop := by
  refine ⟨fun _ => rfl, fun b s h hm => ?_, fun b s h hm hfull => ?_, fun b s frames left h hm hcap hx => ?_⟩
  · rw [exec_rxByte_live h, State.receive_discards hm]
  · rw [exec_rxByte_live h, State.receive_overflow hm hfull]
    rfl
  · rw [exec_rxByte_live h, State.receive_streaming hm hcap, State.rxLoop_eq_extractAll, hx]

/-! ### One byte behind a buffer that meets R24(c) -/

theorem Framing.concat_unmarked {buf : List Byte} (h : Framing buf) {b : Byte} (h3 : 3 ≤ (buf ++ [b]).length)
    (hm : (buf ++ [b]).getD 0 0#8 ≠ Config.marker) : (buf ++ [b]).length = 3 := by
  rw [List.length_append, List.length_singleton] at h3 ⊢
  rcases h with hshort | ⟨hmarker, -⟩
  · omega
  · by_cases h0 : 0 < buf.length
    · exact absurd ((getD_append_of_lt h0 _ _).trans hmarker) hm
    · omega

theorem Framing.concat_complete {buf : List Byte} (h : Framing buf) {b : Byte}
    (hm : (buf ++ [b]).getD 0 0#8 = Config.marker)
    (hl : frameLength ((buf ++ [b]).getD 2 0#8) ≤ (buf ++ [b]).length) : Delimited (buf ++ [b]) := by
  refine ⟨hm, Nat.le_antisymm ?_ hl⟩
  rw [List.length_append, List.length_singleton] at hl ⊢
  rcases h with hshort | ⟨-, hwait⟩
  · rw [frameLength] at hl
    omega
  · by_cases h2 : 2 < buf.length
    · rwa [getD_append_of_lt h2]
    · rw [frameLength] at hl
      omega

/-- Three bytes without a marker in front lose the first. -/
theorem State.receive_drops {s : State} (hm : s.mode = .streaming) {b : Byte} (h3 : (s.rxbuf ++ [b]).length = 3)
    (hmarker : (s.rxbuf ++ [b]).getD 0 0#8 ≠ Config.marker) :
    s.receive b = { s with rxbuf := (s.rxbuf ++ [b]).drop 1 } := by
  have hlen : s.rxlen + 1 = 3 := List.length_append.symm.trans h3
  rw [State.receive_eq_drain hm (by omega), State.drain_unmarked (s := s.feed [b]) (Nat.le_of_eq h3.symm) hmarker]
  exact State.drain_framing (.inl (by simp only [State.feed_rxbuf, List.length_drop, h3]; decide))

section
variable {s : State} (hlive : s.Live) (hm : s.mode = .streaming) {b : Byte} {buf : List Byte} (hb : s.rxbuf ++ [b] = buf)
include hlive hm hb

theorem exec_rxByte_waits (h : Framing buf) : exec (.rxByte b) s = .next { s with rxbuf := buf } := by
  subst hb
  rw [exec_rxByte_live hlive, State.receive_waits hm h]

theorem exec_rxByte_drops (h3 : buf.length = 3) (hmarker : buf.getD 0 0#8 ≠ Config.marker) :
    exec (.rxByte b) s = .next { s with rxbuf := buf.drop 1 } := by
  subst hb
  rw [exec_rxByte_live hlive, State.receive_drops hm h3 hmarker]

theorem exec_rxByte_completes (h : Delimited buf) :
    exec (.rxByte b) s = .next { s with
      rxbuf := [], fcnt := s.fcnt + 1#32, history := s.history ++ [.frameOut s.tag buf (crcOk buf)] } := by
  subst hb
  rw [exec_rxByte_live hlive, State.receive_completes hm h]
  rfl

end

/-- Settles O43: the buffer stays incomplete, has three bytes without a marker in front, or is exactly one frame. -/
theorem oneActionPerReceivedByte : Obligations.OneActionPerReceivedByte := by
  rintro b s buf hlive hm ⟨-, -, hframing, -⟩ rfl
  have hframeLength (l : Byte) : frameLength l = 4 + l.toNat := by rw [frameLength]; omega
  refine ⟨fun hshort => ?_, fun h3 hmarker => ?_, fun h3 hmarker hwait => ?_, fun h3 hmarker hl => ?_⟩
  · exact exec_rxByte_waits hlive hm rfl (.inl hshort)
  · have hlen := hframing.concat_unmarked h3 hmarker
    exact ⟨hlen, exec_rxByte_drops hlive hm rfl hlen hmarker⟩
  · exact exec_rxByte_waits hlive hm rfl (.inr ⟨hmarker, by rwa [hframeLength]⟩)
  · have hframe := hframing.concat_complete hmarker (by rwa [hframeLength])
    have hlen := hframe.right
    exact ⟨hlen.trans (hframeLength _), exec_rxByte_completes hlive hm rfl hframe⟩

/-- Settles O48: two bytes are kept, two make three bytes without a marker in front, one is kept, and the last completes the
frame of R52. -/
theorem sourceScenarioByteByByte : Obligations.SourceScenarioByteByByte := by
  have hok : crcOk [0xAA#8, 0x02#8, 0x00#8, 0xE5#8] = true := by
    rw [← frameOf_stop]
    exact (crcOk_frameWith _ _ _).mpr rfl
  intro s h hm
  refine ⟨fun hb => ?_, fun hb => ?_, fun hb => ?_, fun hb => ?_, fun hb => ?_, fun hb => ?_⟩
  · exact exec_rxByte_waits h hm (by rw [hb]; rfl) (.inl (by decide))
  · exact exec_rxByte_waits h hm (by rw [hb]; rfl) (.inl (by decide))
  · exact exec_rxByte_drops (buf := [0xFF#8, 0xFF#8, 0xAA#8]) h hm (by rw [hb]; rfl) rfl (by decide)
  · exact exec_rxByte_drops (buf := [0xFF#8, 0xAA#8, 0x02#8]) h hm (by rw [hb]; rfl) rfl (by decide)
  · exact exec_rxByte_waits h hm (by rw [hb]; rfl) (.inr ⟨rfl, by decide⟩)
  · rw [← hok]
    exact exec_rxByte_completes h hm (by rw [hb]; rfl) ⟨rfl, rfl⟩

/-! ### STOP and an accepted START -/

/-- STOP and an accepted START write the consumer and leave the receive path as it is. -/
theorem runAll_stop_start {s t : State} (hlive : s.Live) {tag : Byte} (hrun : runAll [.stop, .start tag] s = .next t)
    (hm : t.mode = .streaming) : t.Live ∧ t.tag = tag ∧ t.rxbuf = s.rxbuf ∧ t.fcnt = s.fcnt := by
  obtain ⟨u, hstop, hu, hmode, hbuf, hcnt⟩ : ∃ u, exec .stop s = .next u ∧ u.Live ∧ u.mode = .stopped ∧
      u.rxbuf = s.rxbuf ∧ u.fcnt = s.fcnt :=
    ⟨_, exec_stop_live hlive, by simpa using hlive, rfl, by simp, by simp⟩
  cases hopen : u.sampleOpen with
  | false =>
    cases (runAll_pair_of_next hstop (exec_start_closed hu hopen tag)).symm.trans hrun
    simp [hmode] at hm
  | true =>
    cases (runAll_pair_of_next hstop (exec_start_open hu hopen tag)).symm.trans hrun
    exact ⟨by simpa using hu, rfl, by simpa using hbuf, by simpa using hcnt⟩

/-- Settles O49: the header with the bytes behind it is exactly one frame. -/
theorem staleHeaderTakesTheNextBytes : Obligations.StaleHeaderTakesTheNextBytes := by
  intro kind l tag q r s t hlive _ hb hq hr hrun hm
  obtain ⟨htlive, htag, hbuf, hcnt⟩ := runAll_stop_start hlive hrun hm
  have hstale : t.rxbuf = 0xAA#8 :: kind :: l :: q := hbuf.trans hb
  have hpartial : Framing t.rxbuf := by
    rw [hstale]
    refine .inr ⟨rfl, ?_⟩
    show q.length + 1 + 1 + 1 < 3 + l.toNat + 1
    omega
  have hframe : Delimited (t.feed r).rxbuf := by
    rw [State.feed_rxbuf, hstale]
    refine ⟨rfl, ?_⟩
    show (q ++ r).length + 1 + 1 + 1 = 3 + l.toNat + 1
    omega
  refine ⟨hbuf, ?_⟩
  rw [runAll_rxChunk, State.receiveAll_eq_drain htlive hm (State.inv_of_framing hm hpartial),
    State.drain_delimited hframe, State.feed_rxbuf, hstale, ← htag, ← hcnt]
  rfl

end Sys2Proof.Machine
end

section
/-! While a fault is recorded nothing has an effect (60_exceptions.md R152). -/

namespace Sys2Proof.Machine

/-- Settles O4: RST, the gate of every other event, and the bytes of a response frame all leave a faulted state. -/
theorem recordedFaultIsSticky : Obligations.RecordedFaultIsSticky := by
  intro i s hf
  by_cases hrst : i = .rst
  · rw [hrst, exec_rst_faulted hf]
  by_cases hch : i.channel = .wireIn
  · rw [exec_wireIn hch, State.receiveAll_faulted hf]
  · obtain ⟨e, he⟩ := exec_gated hrst hch
    rw [he, State.atEvent_faulted hf]

end Sys2Proof.Machine
end

section
/-! The steps that run no instruction: with nothing pending (60_exceptions.md R164), and with bytes that are no command frame
(30_encoding.md R52), which only the outgoing wire can hold. -/

namespace Sys2Proof

@[simp] theorem decode_nil (ch : Channel) : decode ch [] = .reject .noInput := by
  cases ch <;> rfl

/-- The incoming wire refuses no byte: what is no response frame is one received byte. -/
theorem decodeWireIn_cons (b : Byte) (tail : List Byte) : ∃ i rest, decodeWireIn (b :: tail) = .ok i rest := by
  simp only [decodeWireIn]
  split
  · split
    · exact ⟨_, _, rfl⟩
    · exact ⟨_, _, rfl⟩
  · exact ⟨_, _, rfl⟩

theorem decode_notCommandFrame {ch : Channel} {bs : List Byte} (h : decode ch bs = .reject .notCommandFrame) :
    ch = .wireOut ∧ bs ≠ [] := by
  have hne : bs ≠ [] := by
    rintro rfl
    cases (decode_nil ch).symm.trans h
  refine ⟨?_, hne⟩
  cases ch with
  | wireOut => rfl
  | events =>
    have hcases : Decoded.EventOrTruncated (.reject .notCommandFrame) := h ▸ decodeEvent_eventOrTruncated hne
    cases hcases
  | wireIn =>
    obtain ⟨b, tail, rfl⟩ := List.exists_cons_of_ne_nil hne
    obtain ⟨i, rest, hok⟩ := decodeWireIn_cons b tail
    cases hok.symm.trans h

namespace Machine

theorem step_of_trace_nil {s : State} (h : s.trace = []) : step s = .next s := by
  simp only [step, h, decode_nil]

/-- An instruction never refuses, so the refusal is the decoder's. -/
theorem step_notCommandFrame_iff (s : State) :
    step s = .refused .notCommandFrame ↔ decode s.channel s.trace = .reject .notCommandFrame := by
  cases hd : decode s.channel s.trace with
  | ok i rest =>
    obtain ⟨t, ht, _⟩ := exec_write i { s with trace := rest }
    simp [step_of_decode hd, ht]
  | reject r => cases r <;> simp [step, hd]

/-- Settles O58: the refusal is the decoder's, which gives it on the outgoing wire alone. -/
theorem stepWithoutAnInstruction : Obligations.StepWithoutAnInstruction :=
  ⟨fun _ => step_of_trace_nil, fun s => (step_notCommandFrame_iff s).mpr,
    fun s h => decode_notCommandFrame ((step_notCommandFrame_iff s).mp h)⟩

end Machine
end Sys2Proof
end

section
/-! The reset event (70_reset_and_hazards.md R170): `exec_rst_live` and `exec_rst_faulted` say all that RST can do, and
`State.resetRegisters` writes the values of R26 and no other field. -/

namespace Sys2Proof.Machine

/-- Settles O1: one part per value of FAULT, each by what RST does there. -/
theorem resetEventWritesTheRuleValues : Obligations.ResetEventWritesTheRuleValues := by
  refine ⟨rfl, ?live, ?faulted⟩
  case live =>
    intro s hf
    rw [exec_rst_live hf, State.resetRegisters]
  case faulted =>
    intro s hf
    exact exec_rst_faulted hf

end Sys2Proof.Machine
end
